-- ==== Sys2Proof/Word.lean ====
section
/-! DEFINITION. The plain value types of the block: bytes, register words, and the pixel
record of `00_scope.md` rule R10. -/

namespace Sys2Proof

/-- One byte of a memory, a stream or a colour channel (rule R9, `u8`). -/
abbrev Byte := BitVec 8

/-- The width and height registers (`10_state.md` rule R22). -/
abbrev Word32 := BitVec 32

/-- The length registers and the value of a host register access (rule R22). -/
abbrev Word64 := BitVec 64

/-- A Pixel: four channels; equality is equality of all four (rule R10). -/
structure Pixel where
  r : Byte
  g : Byte
  b : Byte
  a : Byte
deriving DecidableEq, Repr

/-- An index 0..63 into the color cache (rule R13). -/
abbrev Slot := Fin 64

/-- The color cache: 64 pixels (`10_state.md` rule R38). -/
abbrev Cache := Vector Pixel 64

end Sys2Proof
end

