-- ==== Sys2Proof/Syntax.lean ====
section
/-! DEFINITION. The instructions: one constructor per row of spec/opcode_table.json. The six
chunks carry their operands as the assembly syntax of `30_encoding.md` rule R106 writes them
(signed deltas, a run LENGTH); the two commands carry none. -/

namespace Sys2Proof

inductive Instr where
  /-- RGB(r,g,b): a literal, alpha not carried (rule R98). -/
  | rgb (r g b : Byte)
  /-- RGBA(r,g,b,a): a literal (rule R99). -/
  | rgba (r g b a : Byte)
  /-- INDEX(s): a back-reference to a cache slot (rule R94). -/
  | index (s : Slot)
  /-- DIFF(dr,dg,db): three deltas in -2..1 (rule R95). -/
  | diff (dr dg db : Int)
  /-- LUMA(dg,dr_g,db_g): a green delta in -32..31, and the red and blue deltas relative to it,
  in -8..7 (rule R96). -/
  | luma (dg drg dbg : Int)
  /-- RUN(n): a run of LENGTH n, 1..62 (rule R97, `90_conflicts.md` C2). -/
  | run (n : Nat)
  /-- ENCODE: a host write of 1 to CMD (`45_commands.md` rule R270). -/
  | encode
  /-- DECODE: a host write of 2 to CMD (rule R280). -/
  | decode
deriving DecidableEq, Repr

end Sys2Proof
end

