-- ==== Sys2Proof/Machine/State.lean ====
section
/-! DEFINITION. The state of the block as plain data (`10_state.md` rule R20): the register block,
the working registers, the color cache, the two attached memories, and three fields of the
model's own (log entries 1 to 3). -/

namespace Sys2Proof.Machine

/-- The phases of a command (rule R36). -/
inductive Phase where
  | idle
  | eCheck
  | eHeader
  | ePixels
  | eFlush
  | eTrailer
  | dCheck
  | dHeader
  | dPixels
deriving DecidableEq, Repr

/-- The error kinds of a command (`60_exceptions.md` rule R300). They end the command, not the
machine. -/
inductive ErrKind where
  | invalidArgument
  | formatError
  | allocationFailure
deriving DecidableEq, Repr

/-- What the host can do, and when the engine moves between two things it does (log entry 1). -/
inductive HostMove where
  /-- Write a register of the register block (rule R22); a write to CMD starts a command. -/
  | regWrite (off : Nat) (v : Word64)
  /-- Read a register. -/
  | regRead (off : Nat)
  /-- Write one byte of SRC (`20_memory.md` rule R60). -/
  | srcWrite (a : Nat) (v : Byte)
  /-- Read one byte of SRC. -/
  | srcRead (a : Nat)
  /-- Write one byte of DST. -/
  | dstWrite (a : Nat) (v : Byte)
  /-- Read one byte of DST. -/
  | dstRead (a : Nat)
  /-- The host does nothing while the engine takes one step. -/
  | engine
  /-- Reset the block (`70_reset_and_hazards.md` rules R340, R341). -/
  | reset
deriving DecidableEq, Repr

/-- An attached byte memory: its size (`SRC_SIZE` or `DST_SIZE`, log entry 8), and the bytes that
have been written since power-on, by strictly rising address. A byte not listed has no value of
its own; what a read of it gives is in Machine/Ops.lean (log entry 4). -/
structure Memory where
  size : Nat
  cells : List Host.Cell
deriving DecidableEq, Repr

/-- The whole state. -/
structure State where
  -- the register block (rule R22); CMD reads 0 and stores nothing
  status : Byte
  inWidth : Word32
  inHeight : Word32
  inChannels : Byte
  inColorspace : Byte
  srcLen : Word64
  dstCap : Word64
  resultLen : Word64
  outWidth : Word32
  outHeight : Word32
  outChannels : Byte
  outColorspace : Byte
  -- the working registers (rules R30, R31, R36)
  phase : Phase
  prev : Pixel
  run : BitVec 6
  px : Pixel
  remainingRun : BitVec 6
  pos : Nat
  i : Nat
  out : Nat
  total : Word64
  cap : Word64
  c : Byte
  cEff : Byte
  W : Word32
  Hgt : Word32
  CH : Byte
  CS : Byte
  -- the color cache (rule R38)
  cache : Cache
  -- the attached memories (`20_memory.md` rule R60)
  src : Memory
  dst : Memory
  -- the model's own: the host's pending moves, what its last read gave, the draws made so far
  host : List HostMove
  hostRead : Word64
  freeCtr : Nat
deriving DecidableEq, Repr

/-- The machine stops: an access to an address the spec says does not exist. -/
inductive Fault where
  /-- The engine reads SRC at or above its size. Raised by the engine's reads. The argument
  checks rule it out in every state a command reaches. Safe: the machine stops (log entry 12). -/
  | engineReadOutside
  /-- The engine writes DST at or above its size. Raised by `push`; as above. Safe. -/
  | engineWriteOutside
  /-- The host reads or writes SRC at or above its size. Raised by the host's moves. Safe
  (log entry 13). -/
  | hostSrcOutside
  /-- The host reads or writes DST at or above its size. Raised by the host's moves. Safe
  (log entry 13). -/
  | hostDstOutside
deriving DecidableEq, Repr

/-- The model gives no meaning. -/
inductive Refusal where
  /-- An instruction without a meaning; raised by exec's arms only. Safe. No arm is left. -/
  | notModelled (mnemonic : String)
  /-- The host writes SRC or DST while BUSY = 1: "a host duty violation, not modelled"
  (`70_reset_and_hazards.md` rule R350, `93_implementation_defined.md` S6). Raised by the host's
  memory writes. Unsafe, as `92_eei_decisions.md` D18 says: such runs are missing (log entry 14). -/
  | hostWriteWhileBusy
deriving DecidableEq, Repr

/-- What every slot of the cache, `prev` and `px` hold in `State.reset` (log entry 7). -/
def zeroPixel : Pixel := ⟨0, 0, 0, 0⟩

/-- A memory at power-on: nothing written yet. -/
def Memory.blank (size : Nat) : Memory := ⟨size, []⟩

/-- The machine right after reset (`70_reset_and_hazards.md` rule R340). The working registers and
the cache, any value there, hold the zeros log entry 7 names; the memory sizes are log entry
8's. -/
def State.reset : State where
  status := 0
  inWidth := 0
  inHeight := 0
  inChannels := 0
  inColorspace := 0
  srcLen := 0
  dstCap := 0
  resultLen := 0
  outWidth := 0
  outHeight := 0
  outChannels := 0
  outColorspace := 0
  phase := .idle
  prev := zeroPixel
  run := 0
  px := zeroPixel
  remainingRun := 0
  pos := 0
  i := 0
  out := 0
  total := 0
  cap := 0
  c := 0
  cEff := 0
  W := 0
  Hgt := 0
  CH := 0
  CS := 0
  cache := Vector.replicate 64 zeroPixel
  src := Memory.blank 1048576
  dst := Memory.blank 1048576
  host := []
  hostRead := 0
  freeCtr := 0

end Sys2Proof.Machine
end

