-- ==== Sys2Proof/Machine/Flags.lean ====
section
/-! DEFINITION. The STATUS register, the only flags of the block (`10_state.md` rules R24 and R39):
its fields, and the values it takes. -/

namespace Sys2Proof.Machine

/-- Field BUSY, bit 0. -/
def Status.busy (v : Byte) : Bool := v.getLsbD 0

/-- Field DONE, bit 1. -/
def Status.done (v : Byte) : Bool := v.getLsbD 1

/-- Field ERROR, bit 2. -/
def Status.error (v : Byte) : Bool := v.getLsbD 2

/-- Field ERRCODE, bits 5:4. -/
def Status.errcode (v : Byte) : BitVec 2 := v.extractLsb' 4 2

/-- A STATUS value from its fields; bits 3, 6 and 7 are 0. -/
def Status.pack (busy done error : Bool) (errcode : BitVec 2) : Byte :=
  (BitVec.ofBool busy).setWidth 8 ||| ((BitVec.ofBool done).setWidth 8 <<< 1)
    ||| ((BitVec.ofBool error).setWidth 8 <<< 2) ||| (errcode.setWidth 8 <<< 4)

/-- `code(E)` (`60_exceptions.md` rule R300). -/
def ErrKind.code : ErrKind → BitVec 2
  | .invalidArgument => 1
  | .formatError => 2
  | .allocationFailure => 3

/-- STATUS from a command's start to its end. -/
def Status.running : Byte := Status.pack true false false 0

/-- STATUS after a command that completed. -/
def Status.completed : Byte := Status.pack false true false 0

/-- STATUS after a command that failed (rule R301). -/
def Status.failed (e : ErrKind) : Byte := Status.pack false false true e.code

end Sys2Proof.Machine
end

