-- ==== Sys2Proof/WellFormed.lean ====
section
/-! DEFINITION. When an instruction's operands are in the ranges of `30_encoding.md` rule R106,
so that it has an encoding, and which
instructions are chunks. -/

namespace Sys2Proof

/-- The operand ranges of rule R106. Literal bytes and cache slots are in range by their type. -/
def Instr.wellFormed : Instr → Bool
  | .rgb _ _ _ => true
  | .rgba _ _ _ _ => true
  | .index _ => true
  | .diff dr dg db =>
    decide (-2 ≤ dr ∧ dr ≤ 1) && decide (-2 ≤ dg ∧ dg ≤ 1) && decide (-2 ≤ db ∧ db ≤ 1)
  | .luma dg drg dbg =>
    decide (-32 ≤ dg ∧ dg ≤ 31) && decide (-8 ≤ drg ∧ drg ≤ 7) && decide (-8 ≤ dbg ∧ dbg ≤ 7)
  | .run n => decide (1 ≤ n ∧ n ≤ 62)
  | .encode => true
  | .decode => true

/-- Chunks stand in a stream (`30_encoding.md` rule R93); commands are written to CMD. -/
def Instr.isChunk : Instr → Bool
  | .rgb _ _ _ => true
  | .rgba _ _ _ _ => true
  | .index _ => true
  | .diff _ _ _ => true
  | .luma _ _ _ => true
  | .run _ => true
  | .encode => false
  | .decode => false

end Sys2Proof
end

