-- ==== Sys2Proof/Decode.lean ====
section
/-! DEFINITION. From bytes to instructions and back: the tag dispatch of `30_encoding.md` rule
R100 with the operand assembly of rule R104, the CMD register's reading of its byte
(`10_state.md` rule R23), and the encoder of rules R94 to R99 and R105. -/

namespace Sys2Proof

/-- Why bytes are no instruction. No tag byte is illegal (rule R101): a chunk can only be cut
short. A CMD byte can be reserved (rule R23). -/
inductive DecodeError where
  /-- There is no tag byte. -/
  | noTag
  /-- The tag is there, but operand bytes of the chunk named are missing. -/
  | missingOperand (mnemonic : String)
  /-- A CMD value 0 or 3..255 (rule R23). -/
  | reservedCommand (op : Byte)
deriving DecidableEq, Repr

/-- The field `v[hi:lo]` of `n = hi - lo + 1` bits, zero-extended (`00_scope.md` rule R8). -/
def bitField (lo n : Nat) (v : Byte) : Nat := (v.extractLsb' lo n).toNat

/-- An `n`-bit field from bit `lo`, less its bias (rule R104). -/
def biased (lo n bias : Nat) (v : Byte) : Int := (bitField lo n v : Int) - bias

/-- The low six bits of a tag, as a cache slot (rule R94). -/
def tagSlot (tag : Byte) : Slot := ⟨bitField 0 6 tag, (tag.extractLsb' 0 6).isLt⟩

/-- The length of a chunk in bytes, a function of its tag alone (rule R103). -/
def chunkLength (tag : Byte) : Nat :=
  if tag = 0xFE then 4
  else if tag = 0xFF then 5
  else if bitField 6 2 tag = 0b10 then 2
  else 1

/-- One chunk from the front of a byte list, and the bytes after it. The order of the tests is
rule R100's: the two 8-bit tags first, then the top two bits. -/
def decodeChunk : List Byte → Except DecodeError (Instr × List Byte)
  | [] => .error .noTag
  | tag :: rest =>
    if tag = 0xFE then
      match rest with
      | r :: g :: b :: rest' => .ok (.rgb r g b, rest')
      | _ => .error (.missingOperand "RGB")
    else if tag = 0xFF then
      match rest with
      | r :: g :: b :: a :: rest' => .ok (.rgba r g b a, rest')
      | _ => .error (.missingOperand "RGBA")
    else if bitField 6 2 tag = 0b00 then .ok (.index (tagSlot tag), rest)
    else if bitField 6 2 tag = 0b01 then
      .ok (.diff (biased 4 2 2 tag) (biased 2 2 2 tag) (biased 0 2 2 tag), rest)
    else if bitField 6 2 tag = 0b10 then
      match rest with
      | b2 :: rest' =>
        .ok (.luma (biased 0 6 32 tag) (biased 4 4 8 b2) (biased 0 4 8 b2), rest')
      | _ => .error (.missingOperand "LUMA")
    else .ok (.run (bitField 0 6 tag + 1), rest)

/-- What a byte written to CMD means (`10_state.md` rule R23). -/
def decodeCommand (op : Byte) : Except DecodeError Instr :=
  if op = 1 then .ok .encode
  else if op = 2 then .ok .decode
  else .error (.reservedCommand op)

/-- A signed or unsigned field value `d` stored with its bias (rule R105). -/
def unbiased (bias : Int) (d : Int) : Byte := BitVec.ofInt 8 (d + bias)

/-- The bytes of an instruction: rules R94 to R99 for the chunks, the CMD byte for a command. -/
def encode : Instr → List Byte
  | .rgb r g b => [0xFE, r, g, b]
  | .rgba r g b a => [0xFF, r, g, b, a]
  | .index s => [BitVec.ofNat 8 s.val]
  | .diff dr dg db =>
    [0x40 ||| (unbiased 2 dr <<< 4) ||| (unbiased 2 dg <<< 2) ||| unbiased 2 db]
  | .luma dg drg dbg => [0x80 ||| unbiased 32 dg, (unbiased 8 drg <<< 4) ||| unbiased 8 dbg]
  | .run n => [0xC0 ||| BitVec.ofNat 8 (n - 1)]
  | .encode => [1]
  | .decode => [2]

/-- The lowest `k` bytes of a number, least significant first. -/
def wordBytes : Nat → Nat → List Byte
  | 0, _ => []
  | k + 1, w => BitVec.ofNat 8 w :: wordBytes k (w / 256)

/-- The number an opcode-table word of `nbits` bits stands for; the bits above are 0. -/
def tableWord (nbits w : Nat) : Nat := w % 2 ^ nbits

/-- The longest chunk, in bytes (rule R103). -/
def maxChunkLength : Nat := 5

/-- The command an opcode-table word names, if it is one of the two (log entry 10: the words of
the rows ENCODE and DECODE are also those of INDEX(1) and INDEX(2), and the exact match wins). -/
def tableCommand (nbits w : Nat) : Option Instr :=
  if tableWord nbits w < 256 then (decodeCommand (BitVec.ofNat 8 (tableWord nbits w))).toOption
  else none

/-- The instruction of an opcode-table word: a command row's exact byte is the command, every
other word is a chunk in stream order (log entry 10). -/
def decodeTableWord (nbits w : Nat) : Option Instr :=
  match tableCommand nbits w with
  | some i => some i
  | none =>
    match decodeChunk (wordBytes maxChunkLength (tableWord nbits w)) with
    | .ok (i, _) => some i
    | .error _ => none

end Sys2Proof
end

