-- ==== Sys2Proof/Config.lean ====
section
/-! DEFINITION. What is fixed for a block and does not change as it runs: the parameters of
`00_scope.md` rule R6 (the values this hardware takes are in Machine/Params.lean), and the free
values, opaque constants for what the spec leaves at any value. SRC_SIZE and DST_SIZE are the
sizes of the attached memories and stand with them in State (log entry 8). -/

namespace Sys2Proof

/-- The parameters of the block that are no memory size (`00_scope.md` rule R6). -/
structure Config.Params where
  /-- `HASH`, before the reduction modulo 64 (`40_cache_hash.md` rule R130). -/
  hash : Pixel → Nat
  /-- `CACHE_SEED` (rule R133). -/
  cacheSeed : Cache
  /-- `TIEBREAK` (`43_encoder.md` rule R195). -/
  tieBreak : Bool
  /-- `PIXELS_MAX` (`42_header_codec.md` rule R175). -/
  pixelsMax : Nat

/-- FREE VALUE (log entry 3): the value of the draw numbered by the argument, for everything
that the spec leaves at any value as the machine runs (`93_implementation_defined.md` S1 to S4). -/
opaque Config.freeNat : Nat → Nat

/-- FREE VALUE (log entry 4): what the byte of SRC at an offset holds from power-on until it is
first written (`93_implementation_defined.md` S5). -/
opaque Config.powerOnSrc : Nat → Byte

/-- FREE VALUE (log entry 4): as `Config.powerOnSrc`, for DST. -/
opaque Config.powerOnDst : Nat → Byte

end Sys2Proof
end

