-- ==== Sys2Proof/Machine/Params.lean ====
section
/-! DEFINITION. The values of the parameters of `00_scope.md` rule R6 that this hardware takes
(log entry 9), and the functions that read a parameter: `slot`, `validDesc`. -/

namespace Sys2Proof.Machine

/-- The seed of `prev` and `px` (`10_state.md` rule R33). -/
def seedPixel : Pixel := ⟨0, 0, 0, 255⟩

/-- The default `HASH` (`40_cache_hash.md` rule R131). -/
def defaultHash (p : Pixel) : Nat :=
  3 * p.r.toNat + 5 * p.g.toNat + 7 * p.b.toNat + 11 * p.a.toNat

/-- The cache index of a pixel under a hash: `HASH(p) mod 64` (rule R130). -/
def slotOf (hash : Pixel → Nat) (p : Pixel) : Slot := ⟨hash p % 64, Nat.mod_lt _ (by decide)⟩

/-- The default `CACHE_SEED` for a hash: the zero pixel everywhere but at the slot of
`{0,0,0,255}`, which holds that pixel (rule R133, `92_eei_decisions.md` D3). -/
def defaultSeed (hash : Pixel → Nat) : Cache :=
  (Vector.replicate 64 (⟨0, 0, 0, 0⟩ : Pixel)).set (slotOf hash seedPixel).val seedPixel
    (slotOf hash seedPixel).isLt

/-- The parameters of this hardware (`00_scope.md` rule R6). -/
def block : Config.Params where
  hash := defaultHash
  cacheSeed := defaultSeed defaultHash
  tieBreak := true
  pixelsMax := 400000000

/-- `slot(p)` under the parameters `P` (rule R130). -/
def slot (P : Config.Params) (p : Pixel) : Slot := slotOf P.hash p

/-- `validDesc(width, height, channels)` (`42_header_codec.md` rule R175). -/
def validDesc (P : Config.Params) (width height : Word32) (channels : Byte) : Bool :=
  decide (0 < width.toNat) && decide (0 < height.toNat)
    && (decide (channels = 3) || decide (channels = 4))
    && decide (height.toNat < P.pixelsMax / width.toNat)

end Sys2Proof.Machine
end

