-- ==== Sys2Proof/Machine/Operands.lean ====
section
/-! DEFINITION. The pure functions over operands: modulo-256 delta arithmetic
(`41_delta_arith.md`), the header's bytes (`42_header_codec.md`), and a pixel's bytes in a pixel
buffer (`20_memory.md` rule R63). None reads or writes state. -/

namespace Sys2Proof.Machine

/-- `wrap8(v) = v mod 256` (`00_scope.md` rule R9). -/
def wrap8 (v : Int) : Byte := BitVec.ofInt 8 v

/-- `s8(v)`: the value modulo 256 read as two's complement (rule R9). -/
def s8 (v : Int) : Int := (wrap8 v).toInt

/-- One channel's difference `d = s8(px.c - prev.c)` (`41_delta_arith.md` rule R150). -/
def channelDelta (cur old : Byte) : Int := s8 ((cur.toNat : Int) - old.toNat)

/-- A delta relative to green, `s8(d - dg)` (rule R151). -/
def greenRelative (d dg : Int) : Int := s8 (d - dg)

/-- `fitsDIFF` (rule R152). -/
def fitsDiff (dr dg db : Int) : Bool :=
  decide (-2 ≤ dr ∧ dr ≤ 1) && decide (-2 ≤ dg ∧ dg ≤ 1) && decide (-2 ≤ db ∧ db ≤ 1)

/-- `fitsLUMA` (rule R154). -/
def fitsLuma (dr dg db : Int) : Bool :=
  decide (-32 ≤ dg ∧ dg ≤ 31)
    && decide (-8 ≤ greenRelative dr dg ∧ greenRelative dr dg ≤ 7)
    && decide (-8 ≤ greenRelative db dg ∧ greenRelative db dg ≤ 7)

/-- `wrap8(c + d)`: a delta applied to a channel (rules R156, R157). -/
def addDelta (c : Byte) (d : Int) : Byte := wrap8 (c.toNat + d)

/-- A DIFF chunk's deltas applied to a pixel; alpha unchanged (rule R156). -/
def applyDiff (p : Pixel) (dr dg db : Int) : Pixel :=
  { p with r := addDelta p.r dr, g := addDelta p.g dg, b := addDelta p.b db }

/-- A LUMA chunk's deltas applied to a pixel: the red and blue steps are `dg + dr_g` and
`dg + db_g`; alpha unchanged (rule R157, `30_encoding.md` rule R104). -/
def applyLuma (p : Pixel) (dg drg dbg : Int) : Pixel :=
  { p with r := addDelta p.r (dg + drg), g := addDelta p.g dg, b := addDelta p.b (dg + dbg) }

/-- The channel bytes of a pixel in a buffer of `channels` channels: r, g, b, and a when there
are four (`20_memory.md` rule R63, `44_decoder.md` rule R246). -/
def pixelBytes (channels : Byte) (p : Pixel) : List Byte :=
  if channels = 4 then [p.r, p.g, p.b, p.a] else [p.r, p.g, p.b]

/-- The bytes a pixel takes in a buffer of `channels` channels (rule R63). -/
def pixelStride (channels : Byte) : Nat := if channels = 4 then 4 else 3

/-- A pixel from its channel bytes; a pixel of three has alpha 255 (`43_encoder.md` rule R191).
The last case never arises: `pixelStride` bytes are read. -/
def pixelOfBytes : List Byte → Pixel
  | [r, g, b, a] => ⟨r, g, b, a⟩
  | [r, g, b] => ⟨r, g, b, 255⟩
  | _ => seedPixel

/-- `HEADER_SIZE` (`00_scope.md` rule R6). -/
def headerSize : Nat := 14

/-- `MAGIC`, the ASCII bytes of "qoif" (rule R6). -/
def magic : List Byte := [0x71, 0x6F, 0x69, 0x66]

/-- `TRAILER` (`30_encoding.md` rule R92). -/
def trailer : List Byte := [0, 0, 0, 0, 0, 0, 0, 1]

/-- The bytes of a 32-bit value, most significant first (`20_memory.md` rule R64). -/
def be32 (v : Word32) : List Byte :=
  [v.extractLsb' 24 8, v.extractLsb' 16 8, v.extractLsb' 8 8, v.extractLsb' 0 8]

/-- The 32-bit value of four bytes, most significant first (`42_header_codec.md` rule R174). -/
def ofBe32 (b3 b2 b1 b0 : Byte) : Word32 := b3 ++ b2 ++ b1 ++ b0

/-- The 14 header bytes of a descriptor (`42_header_codec.md` rule R170). -/
def headerBytes (W Hgt : Word32) (CH CS : Byte) : List Byte :=
  magic ++ be32 W ++ be32 Hgt ++ [CH, CS]

/-- A parsed descriptor. -/
structure Descriptor where
  W : Word32
  Hgt : Word32
  CH : Byte
  CS : Byte
deriving DecidableEq, Repr

/-- `read_header` on the 14 bytes at the start of a stream: the descriptor, or none for a bad
magic or a bad field (rules R172 to R175; the colorspace is not checked, rule R177). -/
def parseHeader (P : Config.Params) : List Byte → Option Descriptor
  | [m0, m1, m2, m3, w3, w2, w1, w0, h3, h2, h1, h0, ch, cs] =>
    if [m0, m1, m2, m3] = magic ∧ validDesc P (ofBe32 w3 w2 w1 w0) (ofBe32 h3 h2 h1 h0) ch then
      some ⟨ofBe32 w3 w2 w1 w0, ofBe32 h3 h2 h1 h0, ch, cs⟩
    else none
  | _ => none

end Sys2Proof.Machine
end

