-- ==== Sys2Proof/Machine/Ops.lean ====
section
/-! DEFINITION. The named operations over memories, the cache, the register block and the free
values, and the one operation that fails a command (`60_exceptions.md` rule R301). -/

namespace Sys2Proof.Machine

/-- The outcomes of a step of this machine. -/
abbrev Result := Host.Outcome State Fault Refusal

/-! ## Memories -/

/-- The value listed for an address, if any. -/
def lookupCell : List Host.Cell → Nat → Option Byte
  | [], _ => none
  | (b, v) :: t, a => if a = b then some v else lookupCell t a

/-- List a value for an address, in the place of what was listed for it. -/
def insertCell (a : Nat) (v : Byte) : List Host.Cell → List Host.Cell
  | [] => [(a, v)]
  | (b, x) :: t =>
    if a < b then (a, v) :: (b, x) :: t
    else if a = b then (a, v) :: t
    else (b, x) :: insertCell a v t

/-- The canonical form: addresses strictly rising, all below the size. An unlisted address has no
value, so no entry can equal what it reads as (log entry 4). -/
abbrev Memory.wf (m : Memory) : Prop :=
  m.cells.Pairwise (fun x y => x.1 < y.1) ∧ ∀ x ∈ m.cells, x.1 < m.size

/-- Store one byte; the address is below the size (each caller checks). -/
def Memory.write (m : Memory) (a : Nat) (v : Byte) : Memory :=
  { m with cells := insertCell a v m.cells }

/-- Store bytes at rising addresses from `a` (`00_scope.md` rule R11, `MemWrite`). -/
def Memory.writeAll (m : Memory) (a : Nat) : List Byte → Memory
  | [] => m
  | v :: vs => (m.write a v).writeAll (a + 1) vs

/-- The byte at an address of SRC: the last one written, or a free value (log entry 4). -/
def State.srcByte (s : State) (a : Nat) : Byte :=
  (lookupCell s.src.cells a).getD (Config.powerOnSrc a)

/-- The byte at an address of DST: the last one written, or a free value (log entry 4). -/
def State.dstByte (s : State) (a : Nat) : Byte :=
  (lookupCell s.dst.cells a).getD (Config.powerOnDst a)

/-- `MemRead(SRC, a, n)` (`00_scope.md` rule R11): `n` bytes from `a` on, in order. -/
def State.srcBytes (s : State) (a : Nat) : Nat → List Byte
  | 0 => []
  | n + 1 => s.srcByte a :: s.srcBytes (a + 1) n

/-- `push` of each byte in order (rule R11): they go to DST at `out`, which moves past them. -/
def State.append (s : State) (bs : List Byte) : State :=
  { s with dst := s.dst.writeAll s.out bs, out := s.out + bs.length }

/-- `push`, stopping where DST does not exist (log entry 12). -/
def push (bs : List Byte) (s : State) : Result :=
  if s.out + bs.length ≤ s.dst.size then .next (s.append bs) else .fault .engineWriteOutside

/-! ## Cache and pixels -/

/-- `cache[k] <- p`. -/
def cachePut (cache : Cache) (k : Slot) (p : Pixel) : Cache := cache.set k.val p k.isLt

/-- `cache[slot(px)] <- px` for the decoder's running pixel (`44_decoder.md` rule R238). -/
def State.refresh (s : State) (P : Config.Params) : State :=
  { s with cache := cachePut s.cache (slot P s.px) s.px }

/-- A chunk of `len` bytes has been read and gives the running pixel `p` (rule R234). -/
def State.took (s : State) (len : Nat) (p : Pixel) : State :=
  { s with pos := s.pos + len, px := p }

/-- `emit(px); i <- i + 1` (rules R234, R246). -/
def emitPixel (s : State) : Result :=
  push (pixelBytes s.cEff s.px) { s with i := s.i + 1 }

/-- The number of pixels of the current descriptor, `W*Hgt`. -/
def State.pixels (s : State) : Nat := s.W.toNat * s.Hgt.toNat

/-! ## Free values (log entry 3) -/

/-- The free byte of draw `k`. -/
def freeByte (k : Nat) : Byte := BitVec.ofNat 8 (Config.freeNat k)

/-- The free bytes of the `n` draws from `k` on. -/
def freeBytes (k : Nat) : Nat → List Byte
  | 0 => []
  | n + 1 => freeByte k :: freeBytes (k + 1) n

/-- The free pixel of draw `k`: any of the `2^32`. -/
def freePixel (k : Nat) : Pixel :=
  ⟨BitVec.ofNat 8 (Config.freeNat k), BitVec.ofNat 8 (Config.freeNat k / 2 ^ 8),
    BitVec.ofNat 8 (Config.freeNat k / 2 ^ 16), BitVec.ofNat 8 (Config.freeNat k / 2 ^ 24)⟩

/-- The draws that the working registers and the cache take. -/
def workDraws : Nat := 79

/-- Every working register but `phase`, and the cache, at any value (`10_state.md` rule R37,
`93_implementation_defined.md` S4, log entry 6). -/
def State.scrambleWork (s : State) : State :=
  { s with
    prev := freePixel s.freeCtr
    run := BitVec.ofNat 6 (Config.freeNat (s.freeCtr + 1))
    px := freePixel (s.freeCtr + 2)
    remainingRun := BitVec.ofNat 6 (Config.freeNat (s.freeCtr + 3))
    pos := Config.freeNat (s.freeCtr + 4)
    i := Config.freeNat (s.freeCtr + 5)
    out := Config.freeNat (s.freeCtr + 6)
    total := BitVec.ofNat 64 (Config.freeNat (s.freeCtr + 7))
    cap := BitVec.ofNat 64 (Config.freeNat (s.freeCtr + 8))
    c := BitVec.ofNat 8 (Config.freeNat (s.freeCtr + 9))
    cEff := BitVec.ofNat 8 (Config.freeNat (s.freeCtr + 10))
    W := BitVec.ofNat 32 (Config.freeNat (s.freeCtr + 11))
    Hgt := BitVec.ofNat 32 (Config.freeNat (s.freeCtr + 12))
    CH := BitVec.ofNat 8 (Config.freeNat (s.freeCtr + 13))
    CS := BitVec.ofNat 8 (Config.freeNat (s.freeCtr + 14))
    cache := Vector.ofFn fun k : Fin 64 => freePixel (s.freeCtr + 15 + k.val)
    freeCtr := s.freeCtr + workDraws }

/-- The DST bytes `0 .. cap-1` that exist. -/
def State.dstWindow (s : State) : Nat := min s.cap.toNat s.dst.size

/-- DST bytes `0 .. cap-1` at any value (`20_memory.md` rule R69, log entry 5). -/
def State.scrambleDst (s : State) : State :=
  { s with
    dst := s.dst.writeAll 0 (freeBytes s.freeCtr s.dstWindow)
    freeCtr := s.freeCtr + s.dstWindow }

/-! ## Command completion, failure, reset -/

/-- `raise E`: the command fails, as one step (`60_exceptions.md` rule R301). -/
def State.fail (s : State) (e : ErrKind) : State :=
  { s.scrambleDst.scrambleWork with
    resultLen := 0
    status := Status.failed e
    phase := .idle }

/-- The part of completion both commands share (`45_commands.md` rules R276 and R286). -/
def State.complete (s : State) : State :=
  { s with
    resultLen := BitVec.ofNat 64 s.out
    status := Status.completed
    phase := .idle }

/-- What both commands latch at their start (rules R270 and R280). -/
def State.start (s : State) (p : Phase) : State :=
  { s with
    total := s.srcLen
    cap := s.dstCap
    status := Status.running
    phase := p }

/-- A host reset (`70_reset_and_hazards.md` rules R340 and R341): the register block as after
reset, the working registers and the cache at any value, SRC unchanged, and DST unchanged but for
the window of a command it abandons. What the host has read and means to do is not the block's
(log entry 24). -/
def State.hardReset (s : State) : State :=
  { (if Status.busy s.status then s.scrambleDst else s).scrambleWork with
    status := 0
    inWidth := 0
    inHeight := 0
    inChannels := 0
    inColorspace := 0
    srcLen := 0
    dstCap := 0
    resultLen := 0
    outWidth := 0
    outHeight := 0
    outChannels := 0
    outColorspace := 0
    phase := .idle }

/-! ## The register block (`10_state.md` rule R22) -/

/-- A host read of a register, zero-extended to 64 bits. CMD and every offset not in the table
read 0. -/
def State.regRead (s : State) (off : Nat) : Word64 :=
  match off with
  | 0x08 => s.status.setWidth 64
  | 0x10 => s.inWidth.setWidth 64
  | 0x18 => s.inHeight.setWidth 64
  | 0x20 => s.inChannels.setWidth 64
  | 0x28 => s.inColorspace.setWidth 64
  | 0x30 => s.srcLen
  | 0x38 => s.dstCap
  | 0x40 => s.resultLen
  | 0x48 => s.outWidth.setWidth 64
  | 0x50 => s.outHeight.setWidth 64
  | 0x58 => s.outChannels.setWidth 64
  | 0x60 => s.outColorspace.setWidth 64
  | _ => 0

/-- The offset of CMD. -/
def cmdOffset : Nat := 0x00

/-- A host write of a register other than CMD: the low bits of the value are stored. Read-only
registers and offsets not in the table ignore it, and while BUSY = 1 all do. -/
def State.regWrite (s : State) (off : Nat) (v : Word64) : State :=
  if Status.busy s.status then s
  else
    match off with
    | 0x10 => { s with inWidth := v.setWidth 32 }
    | 0x18 => { s with inHeight := v.setWidth 32 }
    | 0x20 => { s with inChannels := v.setWidth 8 }
    | 0x28 => { s with inColorspace := v.setWidth 8 }
    | 0x30 => { s with srcLen := v }
    | 0x38 => { s with dstCap := v }
    | _ => s

end Sys2Proof.Machine
end

