-- ==== Sys2Proof/Machine/Decoder.lean ====
section
/-! DEFINITION. The Decoder Engine but for its chunks: the argument check and header of DECODE
(`45_commands.md` rules R281, R282), the pixels of a pending run, completion, and the fetch of the
next chunk (`44_decoder.md` rules R233 to R237). -/

namespace Sys2Proof.Machine

/-- Phase D_CHECK (rule R281). -/
def dCheck (s : State) : State :=
  if ¬ (s.c = 0 ∨ s.c = 3 ∨ s.c = 4) then s.fail .invalidArgument
  else if s.total.toNat > s.src.size ∨ s.cap.toNat > s.dst.size then s.fail .invalidArgument
  else { s with phase := .dHeader }

/-- The effective output channel count (`44_decoder.md` rule R231). -/
def effectiveChannels (c CH : Byte) : Byte := if c = 0 then CH else c

/-- The seeds of DECODE (`45_commands.md` rule R282). -/
def State.seedDecoder (s : State) (P : Config.Params) : State :=
  { s with
    px := seedPixel
    remainingRun := 0
    cache := P.cacheSeed
    i := 0
    out := 0
    pos := headerSize }

/-- The parsed descriptor and the effective channel count go into the working registers. -/
def State.latchDescriptor (s : State) (d : Descriptor) : State :=
  { s with W := d.W, Hgt := d.Hgt, CH := d.CH, CS := d.CS, cEff := effectiveChannels s.c d.CH }

/-- Phase D_HEADER (rule R282), stopping where SRC does not exist (log entry 12). -/
def dHeader (P : Config.Params) (s : State) : Result :=
  if s.total.toNat < 22 then .next (s.fail .formatError)
  else if s.src.size < headerSize then .fault .engineReadOutside
  else
    match parseHeader P (s.srcBytes 0 headerSize) with
    | none => .next (s.fail .formatError)
    | some d =>
      if s.cap.toNat < d.W.toNat * d.Hgt.toNat * (effectiveChannels s.c d.CH).toNat then
        .next (s.fail .allocationFailure)
      else .next { (s.latchDescriptor d).seedDecoder P with phase := .dPixels }

/-- A pixel of a pending run: no input, no cache (`44_decoder.md` rule R235). -/
def repeatPixel (s : State) : Result :=
  emitPixel { s with remainingRun := s.remainingRun - 1 }

/-- DECODE completion (`45_commands.md` rule R286). -/
def State.completeDecode (s : State) : State :=
  { s.complete with
    outWidth := s.W
    outHeight := s.Hgt
    outChannels := s.CH
    outColorspace := s.CS }

/-- What the fetch of the next chunk gives. -/
inductive Fetched where
  /-- A chunk. -/
  | chunk (i : Instr)
  /-- The stream has no tag or no operand left: FormatError (`44_decoder.md` rule R236). -/
  | truncated
  /-- A byte of it would lie where SRC does not exist (log entry 12). -/
  | outside
deriving DecidableEq, Repr

/-- The bytes of the chunk at `pos`: as many as its tag says, but none at or past `total`, as
`pull()` reads them (rule R233). -/
def State.chunkAt (s : State) : List Byte :=
  s.srcBytes s.pos (min (chunkLength (s.srcByte s.pos)) (s.total.toNat - s.pos))

/-- The fetch of the next chunk: a tag only before the last eight bytes (rules R233, R236, R237),
its operands before `total`. -/
def fetchChunk (s : State) : Fetched :=
  if s.total.toNat ≤ s.pos + 8 then .truncated
  else if s.src.size < s.pos + (s.chunkAt).length ∨ s.src.size ≤ s.pos then .outside
  else
    match decodeChunk s.chunkAt with
    | .ok (i, _) => .chunk i
    | .error _ => .truncated

end Sys2Proof.Machine
end

