-- ==== Sys2Proof/Machine/Chunks.lean ====
section
/-! DEFINITION. The meanings of the six chunks: what the Decoder Engine does with one
(`44_decoder.md` rules R240 to R246), from the chunk's bytes taken from the stream to the pixel
written out. The rule of each is written once, for any parameters (`40_cache_hash.md` rule R141);
its meaning in this block is that rule at `block`. None looks at the phase; the engine runs one
only in phase D_PIXELS (log entry 19). -/

namespace Sys2Proof.Machine

/-! ## The rules, for any parameters -/

/-- RGB (rule R243): a literal colour, alpha kept. -/
def rgbWith (P : Config.Params) (r g b : Byte) (s : State) : Result :=
  emitPixel ((s.took 4 ⟨r, g, b, s.px.a⟩).refresh P)

/-- RGBA (rule R244): a literal pixel. -/
def rgbaWith (P : Config.Params) (r g b a : Byte) (s : State) : Result :=
  emitPixel ((s.took 5 ⟨r, g, b, a⟩).refresh P)

/-- DIFF (rules R241, R156): small deltas, modulo 256. -/
def diffWith (P : Config.Params) (dr dg db : Int) (s : State) : Result :=
  emitPixel ((s.took 1 (applyDiff s.px dr dg db)).refresh P)

/-- LUMA (rules R242, R157): a green delta and two relative to it, modulo 256. -/
def lumaWith (P : Config.Params) (dg drg dbg : Int) (s : State) : Result :=
  emitPixel ((s.took 2 (applyLuma s.px dg drg dbg)).refresh P)

/-- RUN (rule R245): this pixel repeats the last, and so do the next `n - 1`. -/
def runWith (P : Config.Params) (n : Nat) (s : State) : Result :=
  emitPixel (({ s.took 1 s.px with remainingRun := BitVec.ofNat 6 (n - 1) } : State).refresh P)

/-! ## The meanings in this block -/

/-- RGB in this block. -/
def execRgb (r g b : Byte) (s : State) : Result := rgbWith block r g b s

/-- RGBA in this block. -/
def execRgba (r g b a : Byte) (s : State) : Result := rgbaWith block r g b a s

/-- INDEX (rule R240): the pixel of a cache slot; the cache is not written, so no parameter is
read. -/
def execIndex (k : Slot) (s : State) : Result :=
  emitPixel (s.took 1 s.cache[k])

/-- DIFF in this block. -/
def execDiff (dr dg db : Int) (s : State) : Result := diffWith block dr dg db s

/-- LUMA in this block. -/
def execLuma (dg drg dbg : Int) (s : State) : Result := lumaWith block dg drg dbg s

/-- RUN in this block. -/
def execRun (n : Nat) (s : State) : Result := runWith block n s

end Sys2Proof.Machine
end

