-- ==== Sys2Proof/Machine/Commands.lean ====
section
/-! DEFINITION. The meanings of the two commands: a host write of 1 or 2 to CMD, which starts the
engine when BUSY = 0 and is ignored when BUSY = 1 (`10_state.md` rule R23). What the engine then
does is in Machine/Encoder.lean, Machine/Decoder.lean and Machine/Engine.lean. -/

namespace Sys2Proof.Machine

/-- ENCODE start, as one step (`45_commands.md` rule R270). -/
def execEncode (s : State) : Result :=
  if Status.busy s.status then .next s
  else
    .next { s.start .eCheck with
      W := s.inWidth
      Hgt := s.inHeight
      CH := s.inChannels
      CS := s.inColorspace }

/-- DECODE start, as one step (rule R280). -/
def execDecode (s : State) : Result :=
  if Status.busy s.status then .next s
  else .next { s.start .dCheck with c := s.inChannels }

end Sys2Proof.Machine
end

