-- ==== Sys2Proof/Machine/Encoder.lean ====
section
/-! DEFINITION. The Encoder Engine: the per-pixel state machine of `43_encoder.md` and the phases
of ENCODE (`45_commands.md` rules R271 to R276). The chunks it emits are the instructions of
Syntax.lean, written out by the encoder of Decode.lean. -/

namespace Sys2Proof.Machine

/-- The chunk for a pixel that missed the cache: RGBA on a changed alpha, else DIFF, LUMA or RGB
in that order (`43_encoder.md` rules R197 to R201). -/
def literalChunk (CH : Byte) (px prev : Pixel) : Instr :=
  let dr := channelDelta px.r prev.r
  let dg := channelDelta px.g prev.g
  let db := channelDelta px.b prev.b
  if CH = 4 ∧ px.a ≠ prev.a then .rgba px.r px.g px.b px.a
  else if fitsDiff dr dg db then .diff dr dg db
  else if fitsLuma dr dg db then .luma dg (greenRelative dr dg) (greenRelative db dg)
  else .rgb px.r px.g px.b

/-- `flush()` (rule R195): RUN(62) while 62 or more are pending, then INDEX for a single pixel
that is in its slot (if `TIEBREAK` is on), RUN for any other remainder. -/
def flushChunks (P : Config.Params) (run : BitVec 6) (prev : Pixel) (cache : Cache) : List Instr :=
  List.replicate (run.toNat / 62) (.run 62) ++
    (if run.toNat % 62 = 1 ∧ P.tieBreak ∧ cache[slot P prev] = prev then [.index (slot P prev)]
     else if run.toNat % 62 > 0 then [.run (run.toNat % 62)]
     else [])

/-- What the encoder's step on one pixel gives. -/
structure Encoded where
  chunks : List Instr
  prev : Pixel
  run : BitVec 6
  cache : Cache
deriving DecidableEq, Repr

/-- `encode_step()` on the fetched pixel `px` (rule R192). -/
def encodePixel (P : Config.Params) (CH : Byte) (px prev : Pixel) (run : BitVec 6)
    (cache : Cache) : Encoded :=
  if px = prev then
    if run + 1 = 62 then ⟨[.run 62], prev, 0, cache⟩ else ⟨[], prev, run + 1, cache⟩
  else if cache[slot P px] = px then
    ⟨flushChunks P run prev cache ++ [.index (slot P px)], px, 0, cache⟩
  else
    ⟨flushChunks P run prev cache ++ [literalChunk CH px prev], px, 0,
      cachePut cache (slot P px) px⟩

/-- The bytes of a list of chunks, in order. -/
def chunkBytes (is : List Instr) : List Byte := is.flatMap encode

/-- `fetch(i)` (rule R191). -/
def State.fetchPixel (s : State) : Pixel :=
  pixelOfBytes (s.srcBytes (s.i * pixelStride s.CH) (pixelStride s.CH))

/-- One pixel step on the state (rule R192), stopping where SRC does not exist (log entry 12). -/
def encodeStep (P : Config.Params) (s : State) : Result :=
  if (s.i + 1) * pixelStride s.CH ≤ s.src.size then
    let e := encodePixel P s.CH s.fetchPixel s.prev s.run s.cache
    push (chunkBytes e.chunks)
      { s with i := s.i + 1, prev := e.prev, run := e.run, cache := e.cache }
  else .fault .engineReadOutside

/-- The largest stream an image can take: `W*Hgt*(CH+1) + 22` (`45_commands.md` rule R271,
`43_encoder.md` rule R208). -/
def State.encodeBound (s : State) : Nat := s.pixels * (s.CH.toNat + 1) + 22

/-- The seeds of ENCODE (`45_commands.md` rule R272). -/
def State.seedEncoder (s : State) (P : Config.Params) : State :=
  { s with prev := seedPixel, run := 0, cache := P.cacheSeed, i := 0, out := 0 }

/-- Phase E_CHECK (rules R271, R272). -/
def eCheck (P : Config.Params) (s : State) : State :=
  if ¬ validDesc P s.W s.Hgt s.CH then s.fail .invalidArgument
  else if s.total.toNat > s.src.size ∨ s.cap.toNat > s.dst.size then s.fail .invalidArgument
  else if s.total.toNat < s.pixels * s.CH.toNat then s.fail .invalidArgument
  else if s.cap.toNat < s.encodeBound then s.fail .allocationFailure
  else { s.seedEncoder P with phase := .eHeader }

/-- Phase E_HEADER (rule R273). -/
def eHeader (s : State) : Result :=
  push (headerBytes s.W s.Hgt s.CH s.CS) { s with phase := .ePixels }

/-- Phase E_PIXELS: a pixel step while pixels remain (rule R274). -/
def ePixels (P : Config.Params) (s : State) : Result :=
  if s.i < s.pixels then encodeStep P s else .next { s with phase := .eFlush }

/-- Phase E_FLUSH: the pending run (rules R275, R203). -/
def eFlush (P : Config.Params) (s : State) : Result :=
  push (chunkBytes (flushChunks P s.run s.prev s.cache)) { s with run := 0, phase := .eTrailer }

/-- Phase E_TRAILER and completion (rules R275, R276). -/
def eTrailer (s : State) : Result :=
  match push trailer s with
  | .next t => .next t.complete
  | .fault f => .fault f
  | .refused r => .refused r

end Sys2Proof.Machine
end

