-- ==== Sys2Proof/Machine/Variants.lean ====
section
/-! DEFINITION. The instructions of a block with any parameters (`00_scope.md` rule R6,
`40_cache_hash.md` rule R141). Dispatch.lean's `exec` is this hardware's, at `block`. -/

namespace Sys2Proof.Machine

/-- The meaning of an instruction under the parameters `P`. INDEX and the start of a command read
no parameter. -/
def execWith (P : Config.Params) (i : Instr) (s : State) : Result :=
  match i with
  | .rgb r g b => rgbWith P r g b s
  | .rgba r g b a => rgbaWith P r g b a s
  | .index k => execIndex k s
  | .diff dr dg db => diffWith P dr dg db s
  | .luma dg drg dbg => lumaWith P dg drg dbg s
  | .run n => runWith P n s
  | .encode => execEncode s
  | .decode => execDecode s

end Sys2Proof.Machine
end

