-- ==== Sys2Proof/Machine/Engine.lean ====
section
/-! DEFINITION. One step of the engine in each phase (`10_state.md` rule R36), one move of the
host, and where an instruction is placed so that the next step runs it. What a step reads of the
parameters and of the instructions' meanings are arguments `P` and `ex`: this hardware's step takes
`block` and `exec`, a block with other parameters takes `execWith P` (`40_cache_hash.md` rule
R141). -/

namespace Sys2Proof.Machine

/-- The next chunk of the stream: run it, or fail the command (`44_decoder.md` rules R236, R237). -/
def runChunk (ex : Instr → State → Result) (s : State) : Result :=
  match fetchChunk s with
  | .chunk i => ex i s
  | .truncated => .next (s.fail .formatError)
  | .outside => .fault .engineReadOutside

/-- Phase D_PIXELS: `decode_step()` while pixels remain, then completion (rules R234, R247,
`45_commands.md` rule R283). -/
def dPixels (ex : Instr → State → Result) (s : State) : Result :=
  if s.i < s.pixels then
    if s.remainingRun ≠ 0 then repeatPixel s else runChunk ex s
  else .next s.completeDecode

/-- One step of the engine. In phase IDLE it does nothing (`70_reset_and_hazards.md` rule R340). -/
def engineStepWith (P : Config.Params) (ex : Instr → State → Result) (s : State) : Result :=
  match s.phase with
  | .idle => .next s
  | .eCheck => .next (eCheck P s)
  | .eHeader => eHeader s
  | .ePixels => ePixels P s
  | .eFlush => eFlush P s
  | .eTrailer => eTrailer s
  | .dCheck => .next (dCheck s)
  | .dHeader => dHeader P s
  | .dPixels => dPixels ex s

/-- One step of this hardware's engine. -/
def engineStep (s : State) : Result := engineStepWith block exec s

/-- A host write to CMD: the command its low byte names, or nothing for a reserved value
(`10_state.md` rule R23). -/
def writeCmd (ex : Instr → State → Result) (v : Word64) (s : State) : Result :=
  match decodeCommand (v.setWidth 8) with
  | .ok i => ex i s
  | .error _ => .next s

/-- A host read of a DST byte: the byte when no command runs, any value while one does
(`70_reset_and_hazards.md` rule R350, `93_implementation_defined.md` S3). DESIGN CHOICE (log entry
26): once BUSY is 0 the read gives the engine's last write, also to a host that has not read
`STATUS.BUSY = 0` since, which `20_memory.md` rule R73 leaves unordered. -/
def readDst (a : Nat) (s : State) : State :=
  if Status.busy s.status then
    { s with hostRead := (freeByte s.freeCtr).setWidth 64, freeCtr := s.freeCtr + 1 }
  else { s with hostRead := (s.dstByte a).setWidth 64 }

/-- A host read of a SRC byte: nothing writes SRC while a command runs, and a read has no side
effect (`20_memory.md` rules R62, R67; log entry 15). -/
def readSrc (a : Nat) (s : State) : State := { s with hostRead := (s.srcByte a).setWidth 64 }

/-- One move of the host (log entry 1). DESIGN CHOICE (log entry 26): a read of RESULT_LEN or OUT_*
gives what the register holds, whether or not the host has read `STATUS.BUSY = 0` before it; and a
write of SRC or DST once BUSY is 0 lands after every access of the command that ended, also without
that read. `20_memory.md` rule R73 leaves both unordered. -/
def hostMoveWith (P : Config.Params) (ex : Instr → State → Result) (m : HostMove) (s : State) :
    Result :=
  match m with
  | .regWrite off v => if off = cmdOffset then writeCmd ex v s else .next (s.regWrite off v)
  | .regRead off => .next { s with hostRead := s.regRead off }
  | .srcWrite a v =>
    if Status.busy s.status then .refused .hostWriteWhileBusy
    else if a < s.src.size then .next { s with src := s.src.write a v }
    else .fault .hostSrcOutside
  | .srcRead a => if a < s.src.size then .next (readSrc a s) else .fault .hostSrcOutside
  | .dstWrite a v =>
    if Status.busy s.status then .refused .hostWriteWhileBusy
    else if a < s.dst.size then .next { s with dst := s.dst.write a v }
    else .fault .hostDstOutside
  | .dstRead a => if a < s.dst.size then .next (readDst a s) else .fault .hostDstOutside
  | .engine => engineStepWith P ex s
  | .reset => .next s.hardReset

/-- One move of this hardware's host. -/
def hostMove (m : HostMove) (s : State) : Result := hostMoveWith block exec m s

/-- The host's pending moves are these. -/
def State.withHost (s : State) (ms : List HostMove) : State := { s with host := ms }

/-- One step: the host's next pending move, or, when it has none, a step of the engine (log entry
1). -/
def stepWith (P : Config.Params) (ex : Instr → State → Result) (s : State) : Result :=
  match s.host with
  | [] => engineStepWith P ex s
  | m :: ms => hostMoveWith P ex m (s.withHost ms)

/-- One step of a block with the parameters `P`. -/
def stepOf (P : Config.Params) (s : State) : Result := stepWith P (execWith P) s

/-- The block in phase D_PIXELS at the start of a one-pixel, three-channel image whose chunk
bytes are `bs`: what the host's load of a stream and a DECODE past its header leave (log entry
11). -/
def State.withStream (s : State) (bs : List Byte) : State :=
  { s.seedDecoder block with
    status := Status.running
    phase := .dPixels
    W := 1
    Hgt := 1
    CH := 3
    cEff := 3
    total := BitVec.ofNat 64 (headerSize + bs.length + 8)
    cap := 3
    src := ({ s.src with size := max s.src.size (headerSize + bs.length + 8) }).writeAll headerSize bs
    dst := { s.dst with size := max s.dst.size 3 }
    host := [] }

/-- The block about to run the instruction of an opcode-table word: a command is the host's next
move, a chunk is the next of a stream (log entries 10, 11). -/
def placeTableWord (s : State) (nbits w : Nat) : State :=
  match tableCommand nbits w with
  | some _ =>
    { s with
      status := s.status &&& 0xFE
      phase := .idle
      host := [.regWrite cmdOffset (BitVec.ofNat 64 (tableWord nbits w))] }
  | none => s.withStream (wordBytes maxChunkLength (tableWord nbits w))

end Sys2Proof.Machine
end

