-- ==== Sys2Proof/Machine/Step.lean ====
section
/-! DEFINITION. One step of this hardware, and where an instruction is placed so that the next step
runs it. -/

namespace Sys2Proof.Machine

/-- One step: `stepWith` at this hardware's parameters and meanings. -/
def step (s : State) : Host.Outcome State Fault Refusal := stepWith block exec s

/-- `s` with the instruction of an opcode-table word placed where `step` takes its next one. -/
def State.withFetchWord (s : State) (nbits w : Nat) : State := placeTableWord s nbits w

end Sys2Proof.Machine
end

