-- ==== Sys2Proof/Safety.lean ====
section
/-! DEFINITION. What counts as a safe run, and the terms in which claims about the machine are
made: what a step leaves alone, what an emitted pixel is, and the invariant `State.Inv` that
rules out the states no run reaches. -/

namespace Sys2Proof.Machine

/-- The step stops with no fault. -/
def Result.NoFault : Result → Prop
  | .next _ => True
  | .fault _ => False
  | .refused _ => True

/-! ## What a step leaves alone -/

/-- The registers only the host and reset write (`70_reset_and_hazards.md` rule R342). -/
structure SameInputs (s t : State) : Prop where
  inWidth : t.inWidth = s.inWidth
  inHeight : t.inHeight = s.inHeight
  inChannels : t.inChannels = s.inChannels
  inColorspace : t.inColorspace = s.inColorspace
  srcLen : t.srcLen = s.srcLen
  dstCap : t.dstCap = s.dstCap

/-- The registers a successful DECODE writes (`10_state.md` rule R25). -/
structure SameOutputs (s t : State) : Prop where
  outWidth : t.outWidth = s.outWidth
  outHeight : t.outHeight = s.outHeight
  outChannels : t.outChannels = s.outChannels
  outColorspace : t.outColorspace = s.outColorspace

/-- The descriptor and the latched arguments of the running command. -/
structure SameCommand (s t : State) : Prop where
  total : t.total = s.total
  cap : t.cap = s.cap
  c : t.c = s.c
  cEff : t.cEff = s.cEff
  W : t.W = s.W
  Hgt : t.Hgt = s.Hgt
  CH : t.CH = s.CH
  CS : t.CS = s.CS

/-- What the host sees, means to do and has read; and the draws made. -/
structure SameOutside (s t : State) : Prop where
  host : t.host = s.host
  hostRead : t.hostRead = s.hostRead
  freeCtr : t.freeCtr = s.freeCtr

/-- What no chunk touches: everything but `px`, `remaining_run`, `pos`, `i`, `out`, the cache and
DST. -/
structure ChunkFrame (s t : State) : Prop where
  status : t.status = s.status
  phase : t.phase = s.phase
  resultLen : t.resultLen = s.resultLen
  prev : t.prev = s.prev
  run : t.run = s.run
  src : t.src = s.src
  inputs : SameInputs s t
  outputs : SameOutputs s t
  command : SameCommand s t
  outside : SameOutside s t

/-- What no phase of ENCODE but its start and its failure touches. -/
structure EncoderFrame (s t : State) : Prop where
  px : t.px = s.px
  remainingRun : t.remainingRun = s.remainingRun
  pos : t.pos = s.pos
  src : t.src = s.src
  inputs : SameInputs s t
  outputs : SameOutputs s t
  command : SameCommand s t
  outside : SameOutside s t

/-- DST reads `bs` from offset `a` on, and every other byte reads as before. -/
structure DstWrote (s t : State) (a : Nat) (bs : List Byte) : Prop where
  size : t.dst.size = s.dst.size
  wrote : ∀ k (h : k < bs.length), t.dstByte (a + k) = bs[k]
  before : ∀ b, b < a → t.dstByte b = s.dstByte b
  after : ∀ b, a + bs.length ≤ b → t.dstByte b = s.dstByte b

/-- The pixel `p` has been emitted (`44_decoder.md` rules R234 and R246): r, g, b, and a when
`c_eff` is 4, at `out` on, which moves past them; `i` counts it. -/
structure Emitted (s t : State) (p : Pixel) : Prop where
  i : t.i = s.i + 1
  out : t.out = s.out + (if s.cEff = 4 then 4 else 3)
  bytes : DstWrote s t s.out (if s.cEff = 4 then [p.r, p.g, p.b, p.a] else [p.r, p.g, p.b])

/-- The emitted pixel has room in DST. -/
def HasRoom (s : State) : Prop := s.out + (if s.cEff = 4 then 4 else 3) ≤ s.dst.size

/-- A block with the parameters `P` behind the host's interface (`40_cache_hash.md` rule R141);
`Sys2Proof.core` is this hardware's. -/
def coreOf (P : Config.Params) : Host.Core :=
  { State := State, Fault := Fault, Refusal := Refusal, step := stepOf P, reset := State.reset }

/-- The slot of the running pixel holds it, and every other slot is as before (rule R238). -/
structure Refreshed (P : Config.Params) (s t : State) : Prop where
  held : t.cache[slot P t.px] = t.px
  others : ∀ k : Slot, k ≠ slot P t.px → t.cache[k] = s.cache[k]

/-- A command failed with kind `e` (`60_exceptions.md` rule R301). What DST holds below `cap`, the
working registers and the cache are not said. -/
structure Failed (s t : State) (e : ErrKind) : Prop where
  resultLen : t.resultLen = 0
  status : t.status = Status.pack false false true e.code
  phase : t.phase = .idle
  inputs : SameInputs s t
  outputs : SameOutputs s t
  src : t.src = s.src
  dstSize : t.dst.size = s.dst.size
  dst : ∀ a, s.cap.toNat ≤ a → t.dstByte a = s.dstByte a
  host : t.host = s.host
  hostRead : t.hostRead = s.hostRead

/-! ## The invariant -/

/-- Both memories are in their canonical form. -/
structure State.MemOk (s : State) : Prop where
  src : s.src.wf
  dst : s.dst.wf

/-- BUSY = 1 exactly when a command runs (`10_state.md` rule R36), and STATUS has one of the values
of rule R24. -/
def State.StatusOk (s : State) : Prop :=
  match s.phase with
  | .idle =>
    s.status = 0 ∨ s.status = Status.completed ∨ ∃ e, s.status = Status.failed e
  | _ => s.status = Status.running

/-- Every slot holds the zero pixel or a pixel of that slot (`40_cache_hash.md` rule R139). -/
def SlotOk (P : Config.Params) (cache : Cache) : Prop :=
  ∀ k : Slot, cache[k] = ⟨0, 0, 0, 0⟩ ∨ slot P cache[k] = k

/-- What E_CHECK has established (`45_commands.md` rule R271). -/
structure State.EncodeOk (s : State) (P : Config.Params) : Prop where
  desc : validDesc P s.W s.Hgt s.CH = true
  source : s.pixels * s.CH.toNat ≤ s.total.toNat
  srcSize : s.total.toNat ≤ s.src.size
  bound : s.encodeBound ≤ s.cap.toNat
  dstSize : s.cap.toNat ≤ s.dst.size

/-- What holds between two pixels of the encoder: the bounds of `43_encoder.md` rules R190 and
R208 (a pending run is charged one byte), and the cache properties of `40_cache_hash.md` rules
R138 and R139. -/
structure State.EncoderOk (s : State) (P : Config.Params) : Prop where
  args : s.EncodeOk P
  index : s.i ≤ s.pixels
  run : s.run.toNat ≤ 61
  header : headerSize ≤ s.out
  low : headerSize + (if s.i = 0 then 0 else 1) ≤ s.out + (if s.run = 0 then 0 else 1)
  high : s.out + (if s.run = 0 then 0 else 1) ≤ headerSize + s.i * (s.CH.toNat + 1)
  alpha : s.CH = 3 → s.prev.a = 255
  slots : SlotOk P s.cache
  prevHeld : s.cache[slot P s.prev] = s.prev

/-- What holds between two pixels of the decoder (`44_decoder.md` rules R230 to R233, R246). -/
structure State.DecoderOk (s : State) (P : Config.Params) : Prop where
  desc : validDesc P s.W s.Hgt s.CH = true
  cEff : s.cEff = effectiveChannels s.c s.CH
  channels : s.cEff = 3 ∨ s.cEff = 4
  srcSize : s.total.toNat ≤ s.src.size
  bound : s.pixels * s.cEff.toNat ≤ s.cap.toNat
  dstSize : s.cap.toNat ≤ s.dst.size
  index : s.i ≤ s.pixels
  out : s.out = s.i * s.cEff.toNat
  posLow : headerSize ≤ s.pos
  posHigh : s.pos + 4 ≤ s.total.toNat
  run : s.remainingRun.toNat ≤ 61
  slots : SlotOk P s.cache

/-- What holds in each phase. -/
def State.PhaseOk (s : State) (P : Config.Params) : Prop :=
  match s.phase with
  | .idle => True
  | .eCheck => True
  | .eHeader =>
    s.EncodeOk P ∧ s.i = 0 ∧ s.out = 0 ∧ s.run = 0 ∧ s.prev = seedPixel ∧ s.cache = P.cacheSeed
  | .ePixels => s.EncoderOk P
  | .eFlush => s.EncoderOk P ∧ s.i = s.pixels
  | .eTrailer =>
    s.EncodeOk P ∧ headerSize + 1 ≤ s.out ∧ s.out ≤ headerSize + s.pixels * (s.CH.toNat + 1)
  | .dCheck => True
  | .dHeader =>
    (s.c = 0 ∨ s.c = 3 ∨ s.c = 4) ∧ s.total.toNat ≤ s.src.size ∧ s.cap.toNat ≤ s.dst.size
  | .dPixels => s.DecoderOk P

/-- The invariant of a block with the parameters `P`; this hardware's is at `block`. -/
structure State.Inv (s : State) (P : Config.Params) : Prop where
  mem : s.MemOk
  status : s.StatusOk
  phase : s.PhaseOk P

/-- A bound on the engine steps left in the running command (`45_commands.md` rule R289). It is a
proof's measure, no claim about the chip's time (`92_eei_decisions.md` D32). -/
def State.stepsLeft (s : State) : Nat :=
  match s.phase with
  | .idle => 0
  | .eTrailer => 1
  | .eFlush => 2
  | .ePixels => 3 + (s.pixels - s.i)
  | .eHeader => 4 + s.pixels
  | .eCheck => 5 + s.pixels
  | .dPixels => 1 + (s.pixels - s.i)
  | .dHeader => 2 + block.pixelsMax
  | .dCheck => 3 + block.pixelsMax

end Sys2Proof.Machine
end

