-- ==== Sys2Proof/Certificates/Slice0/Obligations.lean ====
section
/-! DEFINITION. The statements for the provers, from the numbered rules of spec/. Each docstring
names the rules. -/

open Sys2Proof Sys2Proof.Machine

/-! ## Encoding (`30_encoding.md`) -/

/-- R93 to R99, R104, R105: no bit of an encoding is dropped. Every well-formed chunk is read back
from its bytes, whatever follows, and every command from its CMD byte. -/
def Obligations.DecodeEncodeAgree : Prop :=
  ∀ i : Instr, i.wellFormed = true →
    (i.isChunk = true → ∀ rest, decodeChunk (encode i ++ rest) = .ok (i, rest)) ∧
    (i.isChunk = false → ∃ op, encode i = [op] ∧ decodeCommand op = .ok i)

/-- R100, R101: a chunk is read from one byte string only, the one the encoder writes. -/
def Obligations.EncodeDecodeAgree : Prop :=
  ∀ (bs : List Byte) (i : Instr) (rest : List Byte), decodeChunk bs = .ok (i, rest) →
    i.isChunk = true ∧ i.wellFormed = true ∧ encode i ++ rest = bs

/-- R103: the bytes a chunk takes, by its kind; and a tag alone fixes how many. -/
def Obligations.ChunkLengthByTag : Prop :=
  (∀ (bs : List Byte) (i : Instr) (rest : List Byte), decodeChunk bs = .ok (i, rest) →
    bs.length = rest.length +
      (match i with
        | .index _ => 1
        | .diff _ _ _ => 1
        | .run _ => 1
        | .luma _ _ _ => 2
        | .rgb _ _ _ => 4
        | .rgba _ _ _ _ => 5
        | .encode => 0
        | .decode => 0)) ∧
  (∀ (tag : Byte) (o o' rest rest' : List Byte) (i i' : Instr),
    decodeChunk (tag :: o) = .ok (i, rest) → decodeChunk (tag :: o') = .ok (i', rest') →
    o.length + rest'.length = o'.length + rest.length)

/-- R100, R101: which tag bytes give which kind; with operand bytes enough, every tag starts a
chunk, whatever the operands. -/
def Obligations.TagDispatch : Prop :=
  (∀ (tag : Byte) (operands : List Byte), 4 ≤ operands.length →
    ∃ i rest, decodeChunk (tag :: operands) = .ok (i, rest) ∧ i.isChunk = true) ∧
  ∀ (tag : Byte) (operands rest : List Byte) (i : Instr),
    decodeChunk (tag :: operands) = .ok (i, rest) →
    (tag = 0xFE → ∃ r g b, i = .rgb r g b) ∧
    (tag = 0xFF → ∃ r g b a, i = .rgba r g b a) ∧
    (tag.toNat ≤ 0x3F → ∃ s, i = .index s) ∧
    (0x40 ≤ tag.toNat → tag.toNat ≤ 0x7F → ∃ dr dg db, i = .diff dr dg db) ∧
    (0x80 ≤ tag.toNat → tag.toNat ≤ 0xBF → ∃ dg drg dbg, i = .luma dg drg dbg) ∧
    (0xC0 ≤ tag.toNat → tag.toNat ≤ 0xFD → ∃ n, i = .run n)

/-- R104: the operands of each kind, in terms of the tag and the operand bytes. -/
def Obligations.OperandAssembly : Prop :=
  ∀ (tag : Byte) (operands rest : List Byte) (i : Instr),
    decodeChunk (tag :: operands) = .ok (i, rest) →
    (∀ s, i = .index s → s.val = tag.toNat % 64) ∧
    (∀ dr dg db, i = .diff dr dg db →
      dr = (tag.toNat / 16 % 4 : Nat) - (2 : Int) ∧ dg = (tag.toNat / 4 % 4 : Nat) - (2 : Int) ∧
      db = (tag.toNat % 4 : Nat) - (2 : Int)) ∧
    (∀ dg drg dbg, i = .luma dg drg dbg → ∃ b2, operands = b2 :: rest ∧
      dg = (tag.toNat % 64 : Nat) - (32 : Int) ∧
      dg + drg = dg - 8 + (b2.toNat / 16 : Nat) ∧ dg + dbg = dg - 8 + (b2.toNat % 16 : Nat)) ∧
    (∀ n, i = .run n → n = tag.toNat % 64 + 1) ∧
    (∀ r g b, i = .rgb r g b → operands = r :: g :: b :: rest) ∧
    (∀ r g b a, i = .rgba r g b a → operands = r :: g :: b :: a :: rest)

/-- Words written out from R94 to R99 and R23 decode to what they stand for. -/
def Obligations.KnownWordsDecode : Prop :=
  decodeChunk [0b00110101] = .ok (.index 53, []) ∧
  decodeChunk [0b01110110] = .ok (.diff 1 (-1) 0, []) ∧
  decodeChunk [0b10101011, 0b01110100] = .ok (.luma 11 (-1) (-4), []) ∧
  decodeChunk [0b11111101] = .ok (.run 62, []) ∧
  decodeChunk [0xFE, 0x0A, 0x14, 0x1E] = .ok (.rgb 10 20 30, []) ∧
  decodeChunk [0xFF, 0x64, 0x32, 0xC8, 0x80] = .ok (.rgba 100 50 200 128, []) ∧
  decodeCommand 1 = .ok .encode ∧ decodeCommand 2 = .ok .decode

/-! ## Delta arithmetic (`41_delta_arith.md`) and the header (`42_header_codec.md`) -/

/-- R150: the difference of two channels is the one value in -128..127 that leads from the old to
the new modulo 256. -/
def Obligations.ChannelDeltaExact : Prop :=
  ∀ (cur old : Byte) (d : Int), channelDelta cur old = d ↔
    -128 ≤ d ∧ d ≤ 127 ∧ ((old.toNat : Int) + d) % 256 = cur.toNat

/-- R158: the delta tiers are lossless, through their bytes. -/
def Obligations.DeltaTiersLossless : Prop :=
  ∀ prev px : Pixel,
    let dr := channelDelta px.r prev.r
    let dg := channelDelta px.g prev.g
    let db := channelDelta px.b prev.b
    (fitsDiff dr dg db = true →
      decodeChunk (encode (.diff dr dg db)) = .ok (.diff dr dg db, []) ∧
      applyDiff prev dr dg db = ⟨px.r, px.g, px.b, prev.a⟩) ∧
    (fitsLuma dr dg db = true →
      decodeChunk (encode (.luma dg (greenRelative dr dg) (greenRelative db dg))) =
        .ok (.luma dg (greenRelative dr dg) (greenRelative db dg), []) ∧
      applyLuma prev dg (greenRelative dr dg) (greenRelative db dg) =
        ⟨px.r, px.g, px.b, prev.a⟩)

/-- R175, R176: the descriptor test, and what a valid descriptor bounds. -/
def Obligations.DescriptorTest : Prop :=
  ∀ (w h : Word32) (ch : Byte),
    (validDesc block w h ch = true ↔
      0 < w.toNat ∧ 0 < h.toNat ∧ (ch = 3 ∨ ch = 4) ∧ h.toNat < 400000000 / w.toNat) ∧
    (validDesc block w h ch = true →
    w.toNat * h.toNat < 400000000 ∧ w.toNat ≤ 200000000 ∧
    w.toNat * h.toNat * (ch.toNat + 1) + 22 < 2000000022)

/-- R170, R172, R174: a written header of a valid descriptor is 14 bytes and reads back, whatever
the colorspace byte (R171, R177). -/
def Obligations.HeaderRoundTrip : Prop :=
  ∀ (w h : Word32) (ch cs : Byte), validDesc block w h ch = true →
    (headerBytes w h ch cs).length = 14 ∧
    parseHeader block (headerBytes w h ch cs) = some ⟨w, h, ch, cs⟩

/-! ## The color cache (`40_cache_hash.md`) -/

/-- R131, R133: the default hash's corner cases and the default seed. -/
def Obligations.HashAndSeedValues : Prop :=
  (slot block ⟨0, 0, 0, 0⟩ = 0 ∧ slot block ⟨0, 0, 0, 255⟩ = 53 ∧
    slot block ⟨255, 255, 255, 255⟩ = 38 ∧ slot block ⟨255, 255, 255, 0⟩ = 49 ∧
    slot block ⟨1, 2, 3, 4⟩ = 14) ∧
  ∀ k : Slot, block.cacheSeed[k] = if k = 53 then ⟨0, 0, 0, 255⟩ else ⟨0, 0, 0, 0⟩

/-- R139: the slot invariant holds of the default seed of any hash, the encoder's pixel step keeps
it for any parameters, and every chunk keeps it, in this block and for any parameters. -/
def Obligations.SlotInvariant : Prop :=
  (∀ P : Config.Params, P.cacheSeed = defaultSeed P.hash → SlotOk P P.cacheSeed) ∧
  (∀ (P : Config.Params) (ch : Byte) (px prev : Pixel) (run : BitVec 6) (ca : Cache),
    SlotOk P ca → SlotOk P (encodePixel P ch px prev run ca).cache) ∧
  (∀ (i : Instr) (s t : State), i.isChunk = true → SlotOk block s.cache → exec i s = .next t →
    SlotOk block t.cache) ∧
  (∀ (P : Config.Params) (i : Instr) (s t : State), i.isChunk = true → SlotOk P s.cache →
    execWith P i s = .next t → SlotOk P t.cache)

/-- R138: after a chunk that is no INDEX the decoder's running pixel is in its slot, after an INDEX
the cache is as before; the encoder's `prev` is in its slot from the default seed on. -/
def Obligations.CachePostCondition : Prop :=
  (∀ (i : Instr) (s t : State), i.isChunk = true → exec i s = .next t →
    ((∀ k, i ≠ .index k) → t.cache[slot block t.px] = t.px) ∧
    (∀ k, i = .index k → t.cache = s.cache)) ∧
  (∀ (P : Config.Params) (i : Instr) (s t : State), i.isChunk = true → execWith P i s = .next t →
    ((∀ k, i ≠ .index k) → t.cache[slot P t.px] = t.px) ∧
    (∀ k, i = .index k → t.cache = s.cache)) ∧
  (∀ P : Config.Params, P.cacheSeed = defaultSeed P.hash →
    P.cacheSeed[slot P seedPixel] = seedPixel) ∧
  (∀ (P : Config.Params) (ch : Byte) (px prev : Pixel) (run : BitVec 6) (ca : Cache),
    ca[slot P prev] = prev →
    (encodePixel P ch px prev run ca).prev = px ∧ (encodePixel P ch px prev run ca).cache[slot P px] = px)

/-! ## The encoder (`43_encoder.md`) -/

/-- R193: a repeated pixel is counted and emits nothing, but the 62nd, which emits the byte FD. -/
def Obligations.RepeatedPixelEncoding : Prop :=
  ∀ (P : Config.Params) (ch : Byte) (px : Pixel) (run : BitVec 6) (ca : Cache),
    (run.toNat < 61 →
      (encodePixel P ch px px run ca).chunks = [] ∧
      (encodePixel P ch px px run ca).run.toNat = run.toNat + 1) ∧
    (run.toNat = 61 →
      chunkBytes (encodePixel P ch px px run ca).chunks = [0xFD] ∧
      (encodePixel P ch px px run ca).run = 0) ∧
    (encodePixel P ch px px run ca).prev = px ∧ (encodePixel P ch px px run ca).cache = ca

/-- R195: the flush of a pending run of 1 to 61, with the tie-break and without; no run is pending
after it. -/
def Obligations.FlushBytes : Prop :=
  ∀ (P : Config.Params) (run : BitVec 6) (prev : Pixel) (ca : Cache), run.toNat ≤ 61 →
    (run.toNat = 0 → chunkBytes (flushChunks P run prev ca) = []) ∧
    (run.toNat = 1 → P.tieBreak = true → ca[slot P prev] = prev →
      chunkBytes (flushChunks P run prev ca) = [BitVec.ofNat 8 (slot P prev).val]) ∧
    (0 < run.toNat → ¬ (run.toNat = 1 ∧ P.tieBreak = true ∧ ca[slot P prev] = prev) →
      chunkBytes (flushChunks P run prev ca) = [BitVec.ofNat 8 (0xC0 + (run.toNat - 1))]) ∧
    ∀ (ch : Byte) (px : Pixel), px ≠ prev → (encodePixel P ch px prev run ca).run = 0

/-- R209: a pixel equal to the last is counted into the run; the order in which the chunk of a
changed pixel is chosen, after the pending run. -/
def Obligations.SelectionOrder : Prop :=
  ∀ (P : Config.Params) (ch : Byte) (px prev : Pixel) (run : BitVec 6) (ca : Cache),
    let e := encodePixel P ch px prev run ca
    let dr := channelDelta px.r prev.r
    let dg := channelDelta px.g prev.g
    let db := channelDelta px.b prev.b
    let small := (-2 ≤ dr ∧ dr ≤ 1) ∧ (-2 ≤ dg ∧ dg ≤ 1) ∧ (-2 ≤ db ∧ db ≤ 1)
    let medium := (-32 ≤ dg ∧ dg ≤ 31) ∧ (-8 ≤ greenRelative dr dg ∧ greenRelative dr dg ≤ 7) ∧
      (-8 ≤ greenRelative db dg ∧ greenRelative db dg ≤ 7)
    e.prev = px ∧ (px = prev → e.cache = ca ∧
      ((e.chunks = [] ∧ e.run = run + 1) ∨ (e.chunks = [.run 62] ∧ run = 61 ∧ e.run = 0))) ∧
    (px ≠ prev → e.run = 0 ∧ ∃ c, e.chunks = flushChunks P run prev ca ++ [c] ∧
      (ca[slot P px] = px → c = .index (slot P px) ∧ e.cache = ca) ∧
      (ca[slot P px] ≠ px →
        e.cache = cachePut ca (slot P px) px ∧
        (ch = 4 ∧ px.a ≠ prev.a → c = .rgba px.r px.g px.b px.a) ∧
        (¬ (ch = 4 ∧ px.a ≠ prev.a) →
          (small → c = .diff dr dg db) ∧
          (¬ small → medium → c = .luma dg (greenRelative dr dg) (greenRelative db dg)) ∧
          (¬ small → ¬ medium → c = .rgb px.r px.g px.b))))

/-- R153, R155, R195: every chunk the encoder emits is well-formed. -/
def Obligations.EmittedChunksWellFormed : Prop :=
  ∀ (P : Config.Params) (ch : Byte) (px prev : Pixel) (run : BitVec 6) (ca : Cache),
    run.toNat ≤ 61 →
    ∀ c, c ∈ (encodePixel P ch px prev run ca).chunks ∨ c ∈ flushChunks P run prev ca →
      c.isChunk = true ∧ c.wellFormed = true

/-- R206: a 3-channel image never produces an RGBA chunk, and its pixels have alpha 255. -/
def Obligations.NoRgbaForThreeChannels : Prop :=
  (∀ (P : Config.Params) (px prev : Pixel) (run : BitVec 6) (ca : Cache) (r g b a : Byte),
    Instr.rgba r g b a ∉ (encodePixel P 3 px prev run ca).chunks) ∧
  (∀ s : State, s.CH = 3 → s.fetchPixel.a = 255) ∧ seedPixel.a = 255

/-- R205: while `prev` is in its slot and `TIEBREAK` is on, RUN of length 1 is never emitted. -/
def Obligations.NeverRunOfOne : Prop :=
  ∀ (P : Config.Params) (ch : Byte) (px prev : Pixel) (run : BitVec 6) (ca : Cache),
    P.tieBreak = true → ca[slot P prev] = prev → run.toNat ≤ 61 →
    Instr.run 1 ∉ (encodePixel P ch px prev run ca).chunks ∧
    Instr.run 1 ∉ flushChunks P run prev ca

/-- R208: a pixel adds at most `CH + 1` bytes, a pending run being charged one byte. -/
def Obligations.PixelBytesBound : Prop :=
  ∀ (P : Config.Params) (ch : Byte) (px prev : Pixel) (run : BitVec 6) (ca : Cache),
    ch = 3 ∨ ch = 4 → run.toNat ≤ 61 →
    let e := encodePixel P ch px prev run ca
    (chunkBytes e.chunks).length + (if e.run = 0 then 0 else 1) ≤
      (if run = 0 then 0 else 1) + (ch.toNat + 1)

/-- R191, R192, R274: a pixel step of ENCODE: it fetches pixel `i` from SRC, writes its chunks to
DST at `out`, and touches nothing else but `i`, `out`, `prev`, `run` and the cache. -/
def Obligations.EncodePixelStep : Prop :=
  ∀ s : State, s.host = [] → s.phase = .ePixels → s.i < s.pixels →
    (s.CH = 3 ∨ s.CH = 4) → (s.i + 1) * s.CH.toNat ≤ s.src.size →
    let px : Pixel := ⟨s.srcByte (s.i * s.CH.toNat), s.srcByte (s.i * s.CH.toNat + 1),
      s.srcByte (s.i * s.CH.toNat + 2),
      if s.CH = 4 then s.srcByte (s.i * s.CH.toNat + 3) else 255⟩
    let e := encodePixel block s.CH px s.prev s.run s.cache
    s.out + (chunkBytes e.chunks).length ≤ s.dst.size →
    ∃ t, step s = .next t ∧ t.prev = e.prev ∧ t.run = e.run ∧ t.cache = e.cache ∧ t.i = s.i + 1 ∧
      t.out = s.out + (chunkBytes e.chunks).length ∧ DstWrote s t s.out (chunkBytes e.chunks) ∧
      t.status = s.status ∧ t.phase = s.phase ∧ t.resultLen = s.resultLen ∧ EncoderFrame s t

/-! ## The commands (`45_commands.md`) -/

/-- R23: what a write to CMD does. -/
def Obligations.CmdWrite : Prop :=
  ∀ (s : State) (v : Word64),
    (s.status.toNat % 2 = 1 → hostMove (.regWrite 0 v) s = .next s) ∧
    (s.status.toNat % 2 = 0 →
      (v.toNat % 256 = 1 → hostMove (.regWrite 0 v) s = exec .encode s) ∧
      (v.toNat % 256 = 2 → hostMove (.regWrite 0 v) s = exec .decode s) ∧
      (v.toNat % 256 ≠ 1 → v.toNat % 256 ≠ 2 → hostMove (.regWrite 0 v) s = .next s))

/-- R270: ENCODE starts, latching its arguments, and touches nothing else. -/
def Obligations.EncodeStarts : Prop :=
  ∀ s : State, s.status.toNat % 2 = 0 →
    exec .encode s = .next { s with
      W := s.inWidth, Hgt := s.inHeight, CH := s.inChannels, CS := s.inColorspace,
      total := s.srcLen, cap := s.dstCap, status := 1, phase := .eCheck }

/-- R280: DECODE starts, latching its arguments, and touches nothing else. -/
def Obligations.DecodeStarts : Prop :=
  ∀ s : State, s.status.toNat % 2 = 0 →
    exec .decode s = .next { s with
      c := s.inChannels, total := s.srcLen, cap := s.dstCap, status := 1, phase := .dCheck }

/-- R271, R272: the argument check of ENCODE, in its order, and the seeds it ends with. -/
def Obligations.EncodeChecks : Prop :=
  ∀ s : State, s.host = [] → s.phase = .eCheck → ∃ t, step s = .next t ∧
    if ¬ (0 < s.W.toNat ∧ 0 < s.Hgt.toNat ∧ (s.CH = 3 ∨ s.CH = 4) ∧
        s.Hgt.toNat < 400000000 / s.W.toNat) then Failed s t .invalidArgument
    else if s.total.toNat > s.src.size ∨ s.cap.toNat > s.dst.size then
      Failed s t .invalidArgument
    else if s.total.toNat < s.W.toNat * s.Hgt.toNat * s.CH.toNat then
      Failed s t .invalidArgument
    else if s.cap.toNat < s.W.toNat * s.Hgt.toNat * (s.CH.toNat + 1) + 22 then
      Failed s t .allocationFailure
    else t = { s with
      phase := .eHeader, prev := ⟨0, 0, 0, 255⟩, run := 0, cache := block.cacheSeed, i := 0,
      out := 0 }

/-- R170, R273: phase E_HEADER writes the 14 header bytes. -/
def Obligations.EncodeHeaderStep : Prop :=
  ∀ s : State, s.host = [] → s.phase = .eHeader → s.out = 0 → 14 ≤ s.dst.size →
    ∃ t, step s = .next t ∧ t.out = 14 ∧ t.phase = .ePixels ∧
      DstWrote s t 0 [0x71, 0x6F, 0x69, 0x66,
        BitVec.ofNat 8 (s.W.toNat / 2 ^ 24), BitVec.ofNat 8 (s.W.toNat / 2 ^ 16),
        BitVec.ofNat 8 (s.W.toNat / 2 ^ 8), BitVec.ofNat 8 s.W.toNat,
        BitVec.ofNat 8 (s.Hgt.toNat / 2 ^ 24), BitVec.ofNat 8 (s.Hgt.toNat / 2 ^ 16),
        BitVec.ofNat 8 (s.Hgt.toNat / 2 ^ 8), BitVec.ofNat 8 s.Hgt.toNat, s.CH, s.CS] ∧
      t.prev = s.prev ∧ t.run = s.run ∧ t.cache = s.cache ∧ t.i = s.i ∧
      t.status = s.status ∧ t.resultLen = s.resultLen ∧ EncoderFrame s t

/-- R203, R275: the phases that end an image: the pending run is flushed, then the phase is
E_TRAILER. -/
def Obligations.EncodeFlushStep : Prop :=
  ∀ s : State, s.host = [] →
    (s.phase = .ePixels → s.pixels ≤ s.i → step s = .next { s with phase := .eFlush }) ∧
    (s.phase = .eFlush →
      s.out + (chunkBytes (flushChunks block s.run s.prev s.cache)).length ≤ s.dst.size →
      ∃ t, step s = .next t ∧ t.phase = .eTrailer ∧ t.run = 0 ∧
        t.out = s.out + (chunkBytes (flushChunks block s.run s.prev s.cache)).length ∧
        DstWrote s t s.out (chunkBytes (flushChunks block s.run s.prev s.cache)) ∧
        t.prev = s.prev ∧ t.cache = s.cache ∧ t.i = s.i ∧
        t.status = s.status ∧ t.resultLen = s.resultLen ∧ EncoderFrame s t)

/-- R275, R276: the trailer and the completion of ENCODE. That the working registers and the cache
still hold in phase IDLE what the last step left is the model's choice (log entry 6, DESIGN
CHOICE); the spec leaves them at any value there (R37). -/
def Obligations.EncodeCompletes : Prop :=
  ∀ s : State, s.host = [] → s.phase = .eTrailer → s.out + 8 ≤ s.dst.size →
    ∃ t, step s = .next t ∧ t.resultLen = BitVec.ofNat 64 (s.out + 8) ∧ t.status = 0x02 ∧
      t.phase = .idle ∧ t.out = s.out + 8 ∧ DstWrote s t s.out [0, 0, 0, 0, 0, 0, 0, 1] ∧
      t.prev = s.prev ∧ t.run = s.run ∧ t.cache = s.cache ∧ t.i = s.i ∧ EncoderFrame s t

/-- R281: the argument check of DECODE, in its order. -/
def Obligations.DecodeChecks : Prop :=
  ∀ s : State, s.host = [] → s.phase = .dCheck → ∃ t, step s = .next t ∧
    if ¬ (s.c = 0 ∨ s.c = 3 ∨ s.c = 4) then Failed s t .invalidArgument
    else if s.total.toNat > s.src.size ∨ s.cap.toNat > s.dst.size then
      Failed s t .invalidArgument
    else t = { s with phase := .dHeader }

/-- R172, R282: phase D_HEADER, in its order: short input, magic, header fields, room, and the
seeds it ends with. -/
def Obligations.DecodeHeaderStep : Prop :=
  ∀ s : State, s.host = [] → s.phase = .dHeader → s.total.toNat ≤ s.src.size →
    let w := s.srcByte 4 ++ s.srcByte 5 ++ s.srcByte 6 ++ s.srcByte 7
    let h := s.srcByte 8 ++ s.srcByte 9 ++ s.srcByte 10 ++ s.srcByte 11
    let ch := s.srcByte 12
    let ceff := if s.c = 0 then ch else s.c
    ∃ t, step s = .next t ∧
      if s.total.toNat < 22 then Failed s t .formatError
      else if ¬ (s.srcByte 0 = 0x71 ∧ s.srcByte 1 = 0x6F ∧ s.srcByte 2 = 0x69 ∧
          s.srcByte 3 = 0x66) then Failed s t .formatError
      else if ¬ (0 < w.toNat ∧ 0 < h.toNat ∧ (ch = 3 ∨ ch = 4) ∧
          h.toNat < 400000000 / w.toNat) then Failed s t .formatError
      else if s.cap.toNat < w.toNat * h.toNat * ceff.toNat then Failed s t .allocationFailure
      else t = { s with
        W := w, Hgt := h, CH := ch, CS := s.srcByte 13, cEff := ceff, px := ⟨0, 0, 0, 255⟩,
        remainingRun := 0, cache := block.cacheSeed, i := 0, out := 0, pos := 14,
        phase := .dPixels }

/-- R247, R286: DECODE completes when every pixel is out, whatever is left of the stream and of a
run; in every state of the invariant the result's length is then `W*Hgt*c_eff`. That the working
registers and the cache still hold in phase IDLE what they held is the model's choice (log entry 6,
DESIGN CHOICE); the spec leaves them at any value there (R37). -/
def Obligations.DecodeCompletes : Prop :=
  ∀ s : State, s.host = [] → s.phase = .dPixels → s.W.toNat * s.Hgt.toNat ≤ s.i →
    step s = .next { s with
      resultLen := BitVec.ofNat 64 s.out, outWidth := s.W, outHeight := s.Hgt,
      outChannels := s.CH, outColorspace := s.CS, status := 0x02, phase := .idle } ∧
    (s.Inv block → (BitVec.ofNat 64 s.out).toNat = s.W.toNat * s.Hgt.toNat * s.cEff.toNat)

/-! ## The decoder's chunks (`44_decoder.md`) -/

/-- R243: RGB. -/
def Obligations.RgbDecoded : Prop :=
  ∀ (r g b : Byte) (s : State), HasRoom s → ∃ t, exec (.rgb r g b) s = .next t ∧
    t.px = ⟨r, g, b, s.px.a⟩ ∧ t.pos = s.pos + 4 ∧ t.remainingRun = s.remainingRun ∧
    Refreshed block s t ∧ Emitted s t t.px ∧ ChunkFrame s t

/-- R244: RGBA. -/
def Obligations.RgbaDecoded : Prop :=
  ∀ (r g b a : Byte) (s : State), HasRoom s → ∃ t, exec (.rgba r g b a) s = .next t ∧
    t.px = ⟨r, g, b, a⟩ ∧ t.pos = s.pos + 5 ∧ t.remainingRun = s.remainingRun ∧
    Refreshed block s t ∧ Emitted s t t.px ∧ ChunkFrame s t

/-- R240: INDEX. -/
def Obligations.IndexDecoded : Prop :=
  ∀ (k : Slot) (s : State), HasRoom s → ∃ t, exec (.index k) s = .next t ∧
    t.px = s.cache[k] ∧ t.pos = s.pos + 1 ∧ t.remainingRun = s.remainingRun ∧
    t.cache = s.cache ∧ Emitted s t t.px ∧ ChunkFrame s t

/-- R241, R156: DIFF. Each delta is added modulo 256; alpha is kept. -/
def Obligations.DiffDecoded : Prop :=
  ∀ (dr dg db : Int) (s : State), HasRoom s → ∃ t, exec (.diff dr dg db) s = .next t ∧
    ((t.px.r.toNat : Int) = (s.px.r.toNat + dr) % 256 ∧
      (t.px.g.toNat : Int) = (s.px.g.toNat + dg) % 256 ∧
      (t.px.b.toNat : Int) = (s.px.b.toNat + db) % 256 ∧ t.px.a = s.px.a) ∧
    t.pos = s.pos + 1 ∧ t.remainingRun = s.remainingRun ∧
    Refreshed block s t ∧ Emitted s t t.px ∧ ChunkFrame s t

/-- R242, R157: LUMA. The green delta, and the steps of red and blue that build on it, are added
modulo 256; alpha is kept. -/
def Obligations.LumaDecoded : Prop :=
  ∀ (dg drg dbg : Int) (s : State), HasRoom s → ∃ t, exec (.luma dg drg dbg) s = .next t ∧
    ((t.px.r.toNat : Int) = (s.px.r.toNat + dg + drg) % 256 ∧
      (t.px.g.toNat : Int) = (s.px.g.toNat + dg) % 256 ∧
      (t.px.b.toNat : Int) = (s.px.b.toNat + dg + dbg) % 256 ∧ t.px.a = s.px.a) ∧
    t.pos = s.pos + 2 ∧ t.remainingRun = s.remainingRun ∧
    Refreshed block s t ∧ Emitted s t t.px ∧ ChunkFrame s t

/-- R245: RUN of any length an encoding has: this pixel repeats the last, and `n - 1` more are
pending; the pixel's slot is written with it. -/
def Obligations.RunDecoded : Prop :=
  ∀ (n : Nat) (s : State), 1 ≤ n → n ≤ 62 → HasRoom s → ∃ t, exec (.run n) s = .next t ∧
    t.px = s.px ∧ t.pos = s.pos + 1 ∧ t.remainingRun.toNat = n - 1 ∧
    Refreshed block s t ∧ Emitted s t t.px ∧ ChunkFrame s t

/-- Where a chunk stops: its pixel would be written where DST does not exist (R60; the model's
choice, log entry 12). -/
def Obligations.ChunkWithoutRoomFaults : Prop :=
  ∀ (i : Instr) (s : State), i.isChunk = true → ¬ HasRoom s →
    exec i s = .fault .engineWriteOutside

/-- R235: a pixel of a pending run takes no input and leaves the cache alone. -/
def Obligations.PendingRunStep : Prop :=
  ∀ s : State, s.host = [] → s.phase = .dPixels → s.i < s.pixels → 0 < s.remainingRun.toNat →
    HasRoom s → ∃ t, step s = .next t ∧ t.remainingRun.toNat = s.remainingRun.toNat - 1 ∧
      t.px = s.px ∧ t.pos = s.pos ∧ t.cache = s.cache ∧ Emitted s t s.px ∧ ChunkFrame s t

/-- R236: a tag is needed and none is left before the last eight bytes. -/
def Obligations.TruncatedStreamFails : Prop :=
  ∀ s : State, s.host = [] → s.phase = .dPixels → s.i < s.pixels → s.remainingRun = 0 →
    s.total.toNat ≤ s.pos + 8 → ∃ t, step s = .next t ∧ Failed s t .formatError

/-- R239: the operand bound never fires: where a tag is read, its chunk is read whole. -/
def Obligations.OperandGuardNeverFires : Prop :=
  ∀ s : State, s.pos + 8 < s.total.toNat →
    fetchChunk s ≠ .truncated ∧
    (s.total.toNat ≤ s.src.size → ∃ i, fetchChunk s = .chunk i ∧ i.isChunk = true)

/-- R234, R237: a step at a chunk of the stream is that chunk's meaning, and a step at a pending
write of a command to CMD is that command's meaning once the move is taken. The block with any
parameters is, at this hardware's, the machine. -/
def Obligations.StepRunsDecodedInstruction : Prop :=
  (∀ (s : State) (i : Instr) (rest : List Byte), s.host = [] → s.phase = .dPixels →
    s.i < s.pixels → s.remainingRun = 0 → s.pos + 8 < s.total.toNat →
    s.total.toNat ≤ s.src.size → decodeChunk (s.srcBytes s.pos 5) = .ok (i, rest) →
    step s = exec i s) ∧
  (∀ (s : State) (i : Instr) (v : Word64) (ms : List HostMove), s.host = .regWrite 0 v :: ms →
    decodeCommand (v.setWidth 8) = .ok i → step s = exec i { s with host := ms }) ∧
  (∀ i s, execWith block i s = exec i s) ∧ ∀ s, stepOf block s = step s

/-! ## The machine as a whole -/

/-- R301, R303: the step of the engine that sets ERROR is the failure of the command, with all its
effects. -/
def Obligations.FailureEffects : Prop :=
  ∀ s t : State, s.StatusOk → s.phase ≠ .idle → engineStep s = .next t →
    Status.error t.status = true → ∃ e, Failed s t e

/-- R62, R342: the engine never writes SRC nor the registers the host programs. -/
def Obligations.EngineKeepsInputs : Prop :=
  ∀ s t : State, engineStep s = .next t → t.src = s.src ∧ SameInputs s t

/-- R25, R340: in any step, the host's moves included, OUT_* change only when a DECODE completes,
and then to the parsed descriptor, or when the host resets the block. -/
def Obligations.OutputsOnlyByDecode : Prop :=
  ∀ s t : State, step s = .next t → SameOutputs s t ∨ (∃ ms, s.host = .reset :: ms) ∨
    (s.phase = .dPixels ∧ Status.done t.status = true ∧ t.outWidth = s.W ∧ t.outHeight = s.Hgt ∧
      t.outChannels = s.CH ∧ t.outColorspace = s.CS)

/-- R60, R69: the engine leaves every DST byte at or past `cap` alone. -/
def Obligations.DstBeyondCapKept : Prop :=
  ∀ s t : State, s.Inv block → engineStep s = .next t →
    ∀ a, s.cap.toNat ≤ a → t.dstByte a = s.dstByte a

/-- R22: what a register read gives, and that it has no side effect. That a read of RESULT_LEN or
OUT_* gives what the register now holds, also to a host that has not read `STATUS.BUSY = 0` since
the command ended, is the model's choice (log entry 26, DESIGN CHOICE); R73 leaves it unordered. -/
def Obligations.RegisterReads : Prop :=
  ∀ (s : State) (off : Nat), hostMove (.regRead off) s = .next { s with
    hostRead := if off = 0x08 then s.status.setWidth 64 else if off = 0x10 then s.inWidth.setWidth 64
    else if off = 0x18 then s.inHeight.setWidth 64 else if off = 0x20 then s.inChannels.setWidth 64
    else if off = 0x28 then s.inColorspace.setWidth 64 else if off = 0x30 then s.srcLen
    else if off = 0x38 then s.dstCap else if off = 0x40 then s.resultLen
    else if off = 0x48 then s.outWidth.setWidth 64 else if off = 0x50 then s.outHeight.setWidth 64
    else if off = 0x58 then s.outChannels.setWidth 64
    else if off = 0x60 then s.outColorspace.setWidth 64 else 0 }

/-- R22, R350: a write of a register other than CMD: stored in its low bits when nothing runs and
the register is writable, ignored otherwise; every other register reads as before. -/
def Obligations.RegisterWrites : Prop :=
  ∀ (s : State) (off : Nat) (v : Word64), off ≠ 0 → ∃ t, hostMove (.regWrite off v) s = .next t ∧
    (∀ o, o ≠ off → t.regRead o = s.regRead o) ∧
    (s.status.toNat % 2 = 1 → t = s) ∧
    (s.status.toNat % 2 = 0 →
      (off = 0x10 ∨ off = 0x18 → (t.regRead off).toNat = v.toNat % 2 ^ 32) ∧
      (off = 0x20 ∨ off = 0x28 → (t.regRead off).toNat = v.toNat % 2 ^ 8) ∧
      (off = 0x30 ∨ off = 0x38 → t.regRead off = v) ∧
      (off ∉ [0x10, 0x18, 0x20, 0x28, 0x30, 0x38] → t = s)) ∧
    t.src = s.src ∧ t.dst = s.dst ∧ t.phase = s.phase ∧ SameCommand s t ∧ SameOutside s t

/-- R60, R350, R67: a byte the host writes when no command runs is read back, every other byte is
as before, and nothing else changes; while a command runs the write has no move. A read of SRC
gives its byte (while a command runs, the model's choice, log entry 15); a read of DST gives its
byte when no command runs, and changes nothing but what the host has read and the count of draws.
That a DST read gives the byte, and that a write of SRC or DST lands after every access of the
command before it, also for a host that has not read `STATUS.BUSY = 0` since that command ended, is
the model's choice (log entry 26, DESIGN CHOICE); R73 leaves it unordered. -/
def Obligations.HostMemoryAccess : Prop :=
  (∀ (s : State) (a : Nat) (v : Byte), s.status.toNat % 2 = 0 → a < s.src.size →
    ∃ t, hostMove (.srcWrite a v) s = .next t ∧ t = { s with src := t.src } ∧
      t.src.size = s.src.size ∧ t.srcByte a = v ∧ (∀ b, b ≠ a → t.srcByte b = s.srcByte b)) ∧
  (∀ (s : State) (a : Nat) (v : Byte), s.status.toNat % 2 = 0 → a < s.dst.size →
    ∃ t, hostMove (.dstWrite a v) s = .next t ∧ t = { s with dst := t.dst } ∧
      t.dst.size = s.dst.size ∧ t.dstByte a = v ∧ (∀ b, b ≠ a → t.dstByte b = s.dstByte b)) ∧
  (∀ (s : State) (a : Nat) (v : Byte), s.status.toNat % 2 = 1 →
    hostMove (.srcWrite a v) s = .refused .hostWriteWhileBusy ∧
    hostMove (.dstWrite a v) s = .refused .hostWriteWhileBusy) ∧
  (∀ (s : State) (a : Nat), a < s.src.size →
    hostMove (.srcRead a) s = .next { s with hostRead := (s.srcByte a).setWidth 64 }) ∧
  (∀ (s : State) (a : Nat), a < s.dst.size → ∃ (v : Byte) (n : Nat),
    hostMove (.dstRead a) s = .next { s with hostRead := v.setWidth 64, freeCtr := n } ∧
    (s.status.toNat % 2 = 0 → v = s.dstByte a ∧ n = s.freeCtr))

/-- R340, R341: right after reset every register reads 0, the phase is IDLE and the engine waits;
and what a reset leaves from any state: the same, SRC as it was, and DST as it was but for the
window of a command that was running. -/
def Obligations.ResetLeaves : Prop :=
  (∀ off, State.reset.regRead off = 0) ∧ State.reset.phase = .idle ∧
  step State.reset = .next State.reset ∧
  ∀ s : State, ∃ t, hostMove .reset s = .next t ∧
    (∀ off, t.regRead off = 0) ∧ t.phase = .idle ∧ t.src = s.src ∧ t.dst.size = s.dst.size ∧
    (s.status.toNat % 2 = 0 → t.dst = s.dst) ∧
    (∀ a, s.cap.toNat ≤ a → t.dstByte a = s.dstByte a) ∧ engineStep t = .next t

/-- R344: the first command straight after reset fails at once. -/
def Obligations.FirstCommandsFail : Prop :=
  (∃ t u, step { State.reset with host := [.regWrite 0 1] } = .next t ∧ step t = .next u ∧
    Failed t u .invalidArgument) ∧
  (∃ t u v, step { State.reset with host := [.regWrite 0 2] } = .next t ∧ step t = .next u ∧
    step u = .next v ∧ Failed u v .formatError)

/-- Every step, the host's moves included, keeps both memories in canonical form, from any state
with them so. -/
def Obligations.MemoryFormKept : Prop :=
  ∀ s t : State, s.MemOk → step s = .next t → t.MemOk

/-- R24, R36: BUSY = 1 exactly when a command runs, and STATUS takes only the values the rules
give it; every step keeps that. -/
def Obligations.StatusKept : Prop :=
  ∀ s t : State, s.StatusOk → step s = .next t → t.StatusOk

/-- The invariant of the machine is kept by every step, from every state that has it; and so is the
invariant of a block with any `HASH`, `TIEBREAK` and `PIXELS_MAX` and the default seed of its
`HASH` (R141). -/
def Obligations.InvariantKept : Prop :=
  (∀ s t : State, s.Inv block → step s = .next t → t.Inv block) ∧
  ∀ P : Config.Params, P.cacheSeed = defaultSeed P.hash →
    ∀ s t : State, s.Inv P → stepOf P s = .next t → t.Inv P

/-- The invariant of a block with any parameters holds right after reset. -/
def Obligations.InvariantAtReset : Prop := ∀ P : Config.Params, State.reset.Inv P

/-- R61, R68, R277: with the invariant, the engine never reaches outside a memory: it always
answers a next state. -/
def Obligations.EngineNeverStops : Prop :=
  ∀ s : State, s.Inv block → ∃ t, engineStep s = .next t

/-- R289: a command ends after finitely many engine steps: a bound on those left falls at each. -/
def Obligations.CommandsEnd : Prop :=
  ∀ s t : State, s.Inv block → s.phase ≠ .idle → engineStep s = .next t → t.stepsLeft < s.stepsLeft

/-- R140, R141: decoder and encoder agree pixel by pixel, for any parameters: from the same cache
and pixel, running the one chunk the encoder emits for a changed pixel gives the decoder that pixel
and the encoder's cache; and the chunk that flushes a pending run leaves the decoder's pixel and
cache as they are. -/
def Obligations.DecoderFollowsEncoder : Prop :=
  ∀ (P : Config.Params) (ch : Byte) (px : Pixel) (s : State), HasRoom s →
    s.cache[slot P s.px] = s.px → (ch = 3 ∨ ch = 4) → (ch = 3 → px.a = s.px.a) →
    (px ≠ s.px → ∃ i t, (encodePixel P ch px s.px 0 s.cache).chunks = [i] ∧
      execWith P i s = .next t ∧ t.px = px ∧
      t.cache = (encodePixel P ch px s.px 0 s.cache).cache ∧
      t.remainingRun = s.remainingRun) ∧
    (∀ run : BitVec 6, 1 ≤ run.toNat → run.toNat ≤ 61 →
      ∃ i t, flushChunks P run s.px s.cache = [i] ∧ execWith P i s = .next t ∧ t.px = s.px ∧
        t.cache = s.cache ∧ (t.remainingRun.toNat + 1 = run.toNat ∨
          (run = 1 ∧ t.remainingRun = s.remainingRun)))

/-- R141, R248: round trip, for every `HASH` (and `TIEBREAK` and `PIXELS_MAX`) with the default
seed of that `HASH`. The pixel phases of ENCODE run from their entry to completion; a DECODE at the
entry of its pixel phase, for the same descriptor, with the stream in SRC, has in its pixel steps
read every chunk with no run pending, and then completes with the pixel buffer in DST. The
steps counted are those of log entry 16. -/
def Obligations.RoundTrip : Prop :=
  ∀ P : Config.Params, P.cacheSeed = defaultSeed P.hash →
    ∀ s t u : State, s.Inv P → s.host = [] → s.phase = .ePixels → s.i = 0 → s.out = 14 →
    s.run = 0 → s.prev = seedPixel → s.cache = P.cacheSeed →
    (coreOf P).run (s.pixels + 3) s = .next t →
    u.Inv P → u.host = [] → u.phase = .dPixels → u.W = s.W → u.Hgt = s.Hgt → u.CH = s.CH →
    u.c = 0 → u.px = seedPixel → u.remainingRun = 0 → u.cache = P.cacheSeed → u.pos = 14 →
    u.i = 0 → u.out = 0 → u.total = t.resultLen →
    (∀ a, a < t.resultLen.toNat → u.srcByte a = t.dstByte a) →
    ∃ w v : State, (coreOf P).run u.pixels u = .next w ∧ w.phase = .dPixels ∧
      w.pos + 8 = u.total.toNat ∧ w.remainingRun = 0 ∧ stepOf P w = .next v ∧ v.phase = .idle ∧
      v.status = 0x02 ∧ v.resultLen.toNat = s.pixels * s.CH.toNat ∧
      ∀ a, a < s.pixels * s.CH.toNat → v.dstByte a = s.srcByte a

/-- R141: with another seed round trip can fail. There are parameters with the all-zero seed and a
`HASH` that ignores alpha, and an ENCODE of the four-channel image {0,0,0,255}, {0,0,0,255},
{0,0,0,0} run from its CMD write to its end, whose pixels are encoded as RUN(2) and an INDEX, and
whose DECODE from its CMD write to its end gives the third pixel the wrong alpha. -/
def Obligations.ZeroSeedBreaksRoundTrip : Prop :=
  ∃ (P : Config.Params) (k : Slot) (s t u v : State) (m n : Nat),
    P.cacheSeed = Vector.replicate 64 ⟨0, 0, 0, 0⟩ ∧
    (∀ p q : Pixel, p.r = q.r → p.g = q.g → p.b = q.b → P.hash p = P.hash q) ∧
    s.phase = .idle ∧ s.status = 0 ∧ s.host = [.regWrite 0 1] ∧ s.inWidth = 3 ∧ s.inHeight = 1 ∧
    s.inChannels = 4 ∧ s.srcBytes 0 12 = [0, 0, 0, 255, 0, 0, 0, 255, 0, 0, 0, 0] ∧
    (coreOf P).run m s = .next t ∧ t.phase = .idle ∧ t.status = 0x02 ∧ t.resultLen = 24 ∧
    encode (.run 2) ++ encode (.index k) = [t.dstByte 14, t.dstByte 15] ∧
    u.phase = .idle ∧ u.status = 0 ∧ u.host = [.regWrite 0 2] ∧ u.inChannels = 0 ∧
    u.srcLen = t.resultLen ∧ (∀ a, a < t.resultLen.toNat → u.srcByte a = t.dstByte a) ∧
    (coreOf P).run n u = .next v ∧ v.phase = .idle ∧ v.status = 0x02 ∧ v.resultLen = 12 ∧
    (∀ a, a < 11 → v.dstByte a = s.srcByte a) ∧ s.srcByte 11 = 0 ∧ v.dstByte 11 = 255
end

