-- ==== Sys2Proof/Laws/Decode.lean ====
section
/-! SUPPORT. What a decoded chunk can be, said once for every proof about decoding. -/

namespace Sys2Proof

/-- A chunk read from bytes that begin with `tag` is of exactly one of the six kinds, in the order
of `30_encoding.md` rule R100, with the operands that kind takes and the bytes left over. -/
theorem decodeChunk_cases (tag : Byte) (o rest : List Byte) (i : Instr)
    (h : decodeChunk (tag :: o) = .ok (i, rest)) :
    (tag = 0xFE ∧ ∃ r g b, o = r :: g :: b :: rest ∧ i = .rgb r g b) ∨
    (tag = 0xFF ∧ ∃ r g b a, o = r :: g :: b :: a :: rest ∧ i = .rgba r g b a) ∨
    (bitField 6 2 tag = 0 ∧ o = rest ∧ i = .index (tagSlot tag)) ∨
    (bitField 6 2 tag = 1 ∧ o = rest ∧
      i = .diff (biased 4 2 2 tag) (biased 2 2 2 tag) (biased 0 2 2 tag)) ∨
    (bitField 6 2 tag = 2 ∧ ∃ b2, o = b2 :: rest ∧
      i = .luma (biased 0 6 32 tag) (biased 4 4 8 b2) (biased 0 4 8 b2)) ∨
    (bitField 6 2 tag = 3 ∧ tag ≠ 0xFE ∧ tag ≠ 0xFF ∧ o = rest ∧
      i = .run (bitField 0 6 tag + 1)) := by
  have h4 : bitField 6 2 tag < 4 := (tag.extractLsb' 6 2).isLt
  simp only [decodeChunk] at h
  by_cases hFE : tag = 0xFE
  · rw [if_pos hFE] at h
    match o, h with
    | r :: g :: b :: o', h =>
      cases h
      exact .inl ⟨hFE, r, g, b, rfl, rfl⟩
  rw [if_neg hFE] at h
  by_cases hFF : tag = 0xFF
  · rw [if_pos hFF] at h
    match o, h with
    | r :: g :: b :: a :: o', h =>
      cases h
      exact .inr (.inl ⟨hFF, r, g, b, a, rfl, rfl⟩)
  rw [if_neg hFF] at h
  by_cases h0 : bitField 6 2 tag = 0
  · rw [if_pos h0] at h
    cases h
    exact .inr (.inr (.inl ⟨h0, rfl, rfl⟩))
  rw [if_neg h0] at h
  by_cases h1 : bitField 6 2 tag = 1
  · rw [if_pos h1] at h
    cases h
    exact .inr (.inr (.inr (.inl ⟨h1, rfl, rfl⟩)))
  rw [if_neg h1] at h
  by_cases h2 : bitField 6 2 tag = 2
  · rw [if_pos h2] at h
    match o, h with
    | b2 :: o', h =>
      cases h
      exact .inr (.inr (.inr (.inr (.inl ⟨h2, b2, rfl, rfl⟩))))
  rw [if_neg h2] at h
  cases h
  exact .inr (.inr (.inr (.inr (.inr ⟨by omega, hFE, hFF, rfl, rfl⟩))))

/-- The FE and FF tags lie in the pattern of RUN. -/
theorem bitField_literalTags : bitField 6 2 0xFE = 3 ∧ bitField 6 2 0xFF = 3 := by decide

end Sys2Proof
end

