-- ==== Sys2Proof/Laws/State.lean ====
section
/-! SUPPORT. One lemma per field per named update of the state, so that no later proof unfolds a
record update. Each is true by definition. -/

namespace Sys2Proof.Machine

variable (s : State)

/-! `State.append`: `push` of bytes -/

@[simp] theorem State.append_status (bs : List Byte) : (s.append bs).status = s.status := rfl
@[simp] theorem State.append_inWidth (bs : List Byte) : (s.append bs).inWidth = s.inWidth := rfl
@[simp] theorem State.append_inHeight (bs : List Byte) : (s.append bs).inHeight = s.inHeight := rfl
@[simp] theorem State.append_inChannels (bs : List Byte) : (s.append bs).inChannels = s.inChannels := rfl
@[simp] theorem State.append_inColorspace (bs : List Byte) : (s.append bs).inColorspace = s.inColorspace := rfl
@[simp] theorem State.append_srcLen (bs : List Byte) : (s.append bs).srcLen = s.srcLen := rfl
@[simp] theorem State.append_dstCap (bs : List Byte) : (s.append bs).dstCap = s.dstCap := rfl
@[simp] theorem State.append_resultLen (bs : List Byte) : (s.append bs).resultLen = s.resultLen := rfl
@[simp] theorem State.append_outWidth (bs : List Byte) : (s.append bs).outWidth = s.outWidth := rfl
@[simp] theorem State.append_outHeight (bs : List Byte) : (s.append bs).outHeight = s.outHeight := rfl
@[simp] theorem State.append_outChannels (bs : List Byte) : (s.append bs).outChannels = s.outChannels := rfl
@[simp] theorem State.append_outColorspace (bs : List Byte) : (s.append bs).outColorspace = s.outColorspace := rfl
@[simp] theorem State.append_phase (bs : List Byte) : (s.append bs).phase = s.phase := rfl
@[simp] theorem State.append_prev (bs : List Byte) : (s.append bs).prev = s.prev := rfl
@[simp] theorem State.append_run (bs : List Byte) : (s.append bs).run = s.run := rfl
@[simp] theorem State.append_px (bs : List Byte) : (s.append bs).px = s.px := rfl
@[simp] theorem State.append_remainingRun (bs : List Byte) : (s.append bs).remainingRun = s.remainingRun := rfl
@[simp] theorem State.append_pos (bs : List Byte) : (s.append bs).pos = s.pos := rfl
@[simp] theorem State.append_i (bs : List Byte) : (s.append bs).i = s.i := rfl
@[simp] theorem State.append_out (bs : List Byte) : (s.append bs).out = s.out + bs.length := rfl
@[simp] theorem State.append_total (bs : List Byte) : (s.append bs).total = s.total := rfl
@[simp] theorem State.append_cap (bs : List Byte) : (s.append bs).cap = s.cap := rfl
@[simp] theorem State.append_c (bs : List Byte) : (s.append bs).c = s.c := rfl
@[simp] theorem State.append_cEff (bs : List Byte) : (s.append bs).cEff = s.cEff := rfl
@[simp] theorem State.append_W (bs : List Byte) : (s.append bs).W = s.W := rfl
@[simp] theorem State.append_Hgt (bs : List Byte) : (s.append bs).Hgt = s.Hgt := rfl
@[simp] theorem State.append_CH (bs : List Byte) : (s.append bs).CH = s.CH := rfl
@[simp] theorem State.append_CS (bs : List Byte) : (s.append bs).CS = s.CS := rfl
@[simp] theorem State.append_cache (bs : List Byte) : (s.append bs).cache = s.cache := rfl
@[simp] theorem State.append_src (bs : List Byte) : (s.append bs).src = s.src := rfl
@[simp] theorem State.append_dst (bs : List Byte) : (s.append bs).dst = s.dst.writeAll s.out bs := rfl
@[simp] theorem State.append_host (bs : List Byte) : (s.append bs).host = s.host := rfl
@[simp] theorem State.append_hostRead (bs : List Byte) : (s.append bs).hostRead = s.hostRead := rfl
@[simp] theorem State.append_freeCtr (bs : List Byte) : (s.append bs).freeCtr = s.freeCtr := rfl

/-! `State.refresh`: the decoder's cache write -/

@[simp] theorem State.refresh_status (P : Config.Params) : (s.refresh P).status = s.status := rfl
@[simp] theorem State.refresh_inWidth (P : Config.Params) : (s.refresh P).inWidth = s.inWidth := rfl
@[simp] theorem State.refresh_inHeight (P : Config.Params) : (s.refresh P).inHeight = s.inHeight := rfl
@[simp] theorem State.refresh_inChannels (P : Config.Params) : (s.refresh P).inChannels = s.inChannels := rfl
@[simp] theorem State.refresh_inColorspace (P : Config.Params) : (s.refresh P).inColorspace = s.inColorspace := rfl
@[simp] theorem State.refresh_srcLen (P : Config.Params) : (s.refresh P).srcLen = s.srcLen := rfl
@[simp] theorem State.refresh_dstCap (P : Config.Params) : (s.refresh P).dstCap = s.dstCap := rfl
@[simp] theorem State.refresh_resultLen (P : Config.Params) : (s.refresh P).resultLen = s.resultLen := rfl
@[simp] theorem State.refresh_outWidth (P : Config.Params) : (s.refresh P).outWidth = s.outWidth := rfl
@[simp] theorem State.refresh_outHeight (P : Config.Params) : (s.refresh P).outHeight = s.outHeight := rfl
@[simp] theorem State.refresh_outChannels (P : Config.Params) : (s.refresh P).outChannels = s.outChannels := rfl
@[simp] theorem State.refresh_outColorspace (P : Config.Params) : (s.refresh P).outColorspace = s.outColorspace := rfl
@[simp] theorem State.refresh_phase (P : Config.Params) : (s.refresh P).phase = s.phase := rfl
@[simp] theorem State.refresh_prev (P : Config.Params) : (s.refresh P).prev = s.prev := rfl
@[simp] theorem State.refresh_run (P : Config.Params) : (s.refresh P).run = s.run := rfl
@[simp] theorem State.refresh_px (P : Config.Params) : (s.refresh P).px = s.px := rfl
@[simp] theorem State.refresh_remainingRun (P : Config.Params) : (s.refresh P).remainingRun = s.remainingRun := rfl
@[simp] theorem State.refresh_pos (P : Config.Params) : (s.refresh P).pos = s.pos := rfl
@[simp] theorem State.refresh_i (P : Config.Params) : (s.refresh P).i = s.i := rfl
@[simp] theorem State.refresh_out (P : Config.Params) : (s.refresh P).out = s.out := rfl
@[simp] theorem State.refresh_total (P : Config.Params) : (s.refresh P).total = s.total := rfl
@[simp] theorem State.refresh_cap (P : Config.Params) : (s.refresh P).cap = s.cap := rfl
@[simp] theorem State.refresh_c (P : Config.Params) : (s.refresh P).c = s.c := rfl
@[simp] theorem State.refresh_cEff (P : Config.Params) : (s.refresh P).cEff = s.cEff := rfl
@[simp] theorem State.refresh_W (P : Config.Params) : (s.refresh P).W = s.W := rfl
@[simp] theorem State.refresh_Hgt (P : Config.Params) : (s.refresh P).Hgt = s.Hgt := rfl
@[simp] theorem State.refresh_CH (P : Config.Params) : (s.refresh P).CH = s.CH := rfl
@[simp] theorem State.refresh_CS (P : Config.Params) : (s.refresh P).CS = s.CS := rfl
@[simp] theorem State.refresh_cache (P : Config.Params) : (s.refresh P).cache = cachePut s.cache (slot P s.px) s.px := rfl
@[simp] theorem State.refresh_src (P : Config.Params) : (s.refresh P).src = s.src := rfl
@[simp] theorem State.refresh_dst (P : Config.Params) : (s.refresh P).dst = s.dst := rfl
@[simp] theorem State.refresh_host (P : Config.Params) : (s.refresh P).host = s.host := rfl
@[simp] theorem State.refresh_hostRead (P : Config.Params) : (s.refresh P).hostRead = s.hostRead := rfl
@[simp] theorem State.refresh_freeCtr (P : Config.Params) : (s.refresh P).freeCtr = s.freeCtr := rfl

/-! `State.took`: a chunk read -/

@[simp] theorem State.took_status (len : Nat) (p : Pixel) : (s.took len p).status = s.status := rfl
@[simp] theorem State.took_inWidth (len : Nat) (p : Pixel) : (s.took len p).inWidth = s.inWidth := rfl
@[simp] theorem State.took_inHeight (len : Nat) (p : Pixel) : (s.took len p).inHeight = s.inHeight := rfl
@[simp] theorem State.took_inChannels (len : Nat) (p : Pixel) : (s.took len p).inChannels = s.inChannels := rfl
@[simp] theorem State.took_inColorspace (len : Nat) (p : Pixel) : (s.took len p).inColorspace = s.inColorspace := rfl
@[simp] theorem State.took_srcLen (len : Nat) (p : Pixel) : (s.took len p).srcLen = s.srcLen := rfl
@[simp] theorem State.took_dstCap (len : Nat) (p : Pixel) : (s.took len p).dstCap = s.dstCap := rfl
@[simp] theorem State.took_resultLen (len : Nat) (p : Pixel) : (s.took len p).resultLen = s.resultLen := rfl
@[simp] theorem State.took_outWidth (len : Nat) (p : Pixel) : (s.took len p).outWidth = s.outWidth := rfl
@[simp] theorem State.took_outHeight (len : Nat) (p : Pixel) : (s.took len p).outHeight = s.outHeight := rfl
@[simp] theorem State.took_outChannels (len : Nat) (p : Pixel) : (s.took len p).outChannels = s.outChannels := rfl
@[simp] theorem State.took_outColorspace (len : Nat) (p : Pixel) : (s.took len p).outColorspace = s.outColorspace := rfl
@[simp] theorem State.took_phase (len : Nat) (p : Pixel) : (s.took len p).phase = s.phase := rfl
@[simp] theorem State.took_prev (len : Nat) (p : Pixel) : (s.took len p).prev = s.prev := rfl
@[simp] theorem State.took_run (len : Nat) (p : Pixel) : (s.took len p).run = s.run := rfl
@[simp] theorem State.took_px (len : Nat) (p : Pixel) : (s.took len p).px = p := rfl
@[simp] theorem State.took_remainingRun (len : Nat) (p : Pixel) : (s.took len p).remainingRun = s.remainingRun := rfl
@[simp] theorem State.took_pos (len : Nat) (p : Pixel) : (s.took len p).pos = s.pos + len := rfl
@[simp] theorem State.took_i (len : Nat) (p : Pixel) : (s.took len p).i = s.i := rfl
@[simp] theorem State.took_out (len : Nat) (p : Pixel) : (s.took len p).out = s.out := rfl
@[simp] theorem State.took_total (len : Nat) (p : Pixel) : (s.took len p).total = s.total := rfl
@[simp] theorem State.took_cap (len : Nat) (p : Pixel) : (s.took len p).cap = s.cap := rfl
@[simp] theorem State.took_c (len : Nat) (p : Pixel) : (s.took len p).c = s.c := rfl
@[simp] theorem State.took_cEff (len : Nat) (p : Pixel) : (s.took len p).cEff = s.cEff := rfl
@[simp] theorem State.took_W (len : Nat) (p : Pixel) : (s.took len p).W = s.W := rfl
@[simp] theorem State.took_Hgt (len : Nat) (p : Pixel) : (s.took len p).Hgt = s.Hgt := rfl
@[simp] theorem State.took_CH (len : Nat) (p : Pixel) : (s.took len p).CH = s.CH := rfl
@[simp] theorem State.took_CS (len : Nat) (p : Pixel) : (s.took len p).CS = s.CS := rfl
@[simp] theorem State.took_cache (len : Nat) (p : Pixel) : (s.took len p).cache = s.cache := rfl
@[simp] theorem State.took_src (len : Nat) (p : Pixel) : (s.took len p).src = s.src := rfl
@[simp] theorem State.took_dst (len : Nat) (p : Pixel) : (s.took len p).dst = s.dst := rfl
@[simp] theorem State.took_host (len : Nat) (p : Pixel) : (s.took len p).host = s.host := rfl
@[simp] theorem State.took_hostRead (len : Nat) (p : Pixel) : (s.took len p).hostRead = s.hostRead := rfl
@[simp] theorem State.took_freeCtr (len : Nat) (p : Pixel) : (s.took len p).freeCtr = s.freeCtr := rfl

/-! `State.scrambleDst`: DST at any value below `cap` -/

@[simp] theorem State.scrambleDst_status : s.scrambleDst.status = s.status := rfl
@[simp] theorem State.scrambleDst_inWidth : s.scrambleDst.inWidth = s.inWidth := rfl
@[simp] theorem State.scrambleDst_inHeight : s.scrambleDst.inHeight = s.inHeight := rfl
@[simp] theorem State.scrambleDst_inChannels : s.scrambleDst.inChannels = s.inChannels := rfl
@[simp] theorem State.scrambleDst_inColorspace : s.scrambleDst.inColorspace = s.inColorspace := rfl
@[simp] theorem State.scrambleDst_srcLen : s.scrambleDst.srcLen = s.srcLen := rfl
@[simp] theorem State.scrambleDst_dstCap : s.scrambleDst.dstCap = s.dstCap := rfl
@[simp] theorem State.scrambleDst_resultLen : s.scrambleDst.resultLen = s.resultLen := rfl
@[simp] theorem State.scrambleDst_outWidth : s.scrambleDst.outWidth = s.outWidth := rfl
@[simp] theorem State.scrambleDst_outHeight : s.scrambleDst.outHeight = s.outHeight := rfl
@[simp] theorem State.scrambleDst_outChannels : s.scrambleDst.outChannels = s.outChannels := rfl
@[simp] theorem State.scrambleDst_outColorspace : s.scrambleDst.outColorspace = s.outColorspace := rfl
@[simp] theorem State.scrambleDst_phase : s.scrambleDst.phase = s.phase := rfl
@[simp] theorem State.scrambleDst_prev : s.scrambleDst.prev = s.prev := rfl
@[simp] theorem State.scrambleDst_run : s.scrambleDst.run = s.run := rfl
@[simp] theorem State.scrambleDst_px : s.scrambleDst.px = s.px := rfl
@[simp] theorem State.scrambleDst_remainingRun : s.scrambleDst.remainingRun = s.remainingRun := rfl
@[simp] theorem State.scrambleDst_pos : s.scrambleDst.pos = s.pos := rfl
@[simp] theorem State.scrambleDst_i : s.scrambleDst.i = s.i := rfl
@[simp] theorem State.scrambleDst_out : s.scrambleDst.out = s.out := rfl
@[simp] theorem State.scrambleDst_total : s.scrambleDst.total = s.total := rfl
@[simp] theorem State.scrambleDst_cap : s.scrambleDst.cap = s.cap := rfl
@[simp] theorem State.scrambleDst_c : s.scrambleDst.c = s.c := rfl
@[simp] theorem State.scrambleDst_cEff : s.scrambleDst.cEff = s.cEff := rfl
@[simp] theorem State.scrambleDst_W : s.scrambleDst.W = s.W := rfl
@[simp] theorem State.scrambleDst_Hgt : s.scrambleDst.Hgt = s.Hgt := rfl
@[simp] theorem State.scrambleDst_CH : s.scrambleDst.CH = s.CH := rfl
@[simp] theorem State.scrambleDst_CS : s.scrambleDst.CS = s.CS := rfl
@[simp] theorem State.scrambleDst_cache : s.scrambleDst.cache = s.cache := rfl
@[simp] theorem State.scrambleDst_src : s.scrambleDst.src = s.src := rfl
@[simp] theorem State.scrambleDst_dst : s.scrambleDst.dst = s.dst.writeAll 0 (freeBytes s.freeCtr s.dstWindow) := rfl
@[simp] theorem State.scrambleDst_host : s.scrambleDst.host = s.host := rfl
@[simp] theorem State.scrambleDst_hostRead : s.scrambleDst.hostRead = s.hostRead := rfl
@[simp] theorem State.scrambleDst_freeCtr : s.scrambleDst.freeCtr = s.freeCtr + s.dstWindow := rfl

/-! `State.scrambleWork`: the working registers at any value -/

@[simp] theorem State.scrambleWork_status : s.scrambleWork.status = s.status := rfl
@[simp] theorem State.scrambleWork_inWidth : s.scrambleWork.inWidth = s.inWidth := rfl
@[simp] theorem State.scrambleWork_inHeight : s.scrambleWork.inHeight = s.inHeight := rfl
@[simp] theorem State.scrambleWork_inChannels : s.scrambleWork.inChannels = s.inChannels := rfl
@[simp] theorem State.scrambleWork_inColorspace : s.scrambleWork.inColorspace = s.inColorspace := rfl
@[simp] theorem State.scrambleWork_srcLen : s.scrambleWork.srcLen = s.srcLen := rfl
@[simp] theorem State.scrambleWork_dstCap : s.scrambleWork.dstCap = s.dstCap := rfl
@[simp] theorem State.scrambleWork_resultLen : s.scrambleWork.resultLen = s.resultLen := rfl
@[simp] theorem State.scrambleWork_outWidth : s.scrambleWork.outWidth = s.outWidth := rfl
@[simp] theorem State.scrambleWork_outHeight : s.scrambleWork.outHeight = s.outHeight := rfl
@[simp] theorem State.scrambleWork_outChannels : s.scrambleWork.outChannels = s.outChannels := rfl
@[simp] theorem State.scrambleWork_outColorspace : s.scrambleWork.outColorspace = s.outColorspace := rfl
@[simp] theorem State.scrambleWork_phase : s.scrambleWork.phase = s.phase := rfl
@[simp] theorem State.scrambleWork_src : s.scrambleWork.src = s.src := rfl
@[simp] theorem State.scrambleWork_dst : s.scrambleWork.dst = s.dst := rfl
@[simp] theorem State.scrambleWork_host : s.scrambleWork.host = s.host := rfl
@[simp] theorem State.scrambleWork_hostRead : s.scrambleWork.hostRead = s.hostRead := rfl
@[simp] theorem State.scrambleWork_freeCtr : s.scrambleWork.freeCtr = s.freeCtr + workDraws := rfl

/-! `State.fail`: a failed command -/

@[simp] theorem State.fail_status (e : ErrKind) : (s.fail e).status = Status.failed e := rfl
@[simp] theorem State.fail_inWidth (e : ErrKind) : (s.fail e).inWidth = s.inWidth := rfl
@[simp] theorem State.fail_inHeight (e : ErrKind) : (s.fail e).inHeight = s.inHeight := rfl
@[simp] theorem State.fail_inChannels (e : ErrKind) : (s.fail e).inChannels = s.inChannels := rfl
@[simp] theorem State.fail_inColorspace (e : ErrKind) : (s.fail e).inColorspace = s.inColorspace := rfl
@[simp] theorem State.fail_srcLen (e : ErrKind) : (s.fail e).srcLen = s.srcLen := rfl
@[simp] theorem State.fail_dstCap (e : ErrKind) : (s.fail e).dstCap = s.dstCap := rfl
@[simp] theorem State.fail_resultLen (e : ErrKind) : (s.fail e).resultLen = 0 := rfl
@[simp] theorem State.fail_outWidth (e : ErrKind) : (s.fail e).outWidth = s.outWidth := rfl
@[simp] theorem State.fail_outHeight (e : ErrKind) : (s.fail e).outHeight = s.outHeight := rfl
@[simp] theorem State.fail_outChannels (e : ErrKind) : (s.fail e).outChannels = s.outChannels := rfl
@[simp] theorem State.fail_outColorspace (e : ErrKind) : (s.fail e).outColorspace = s.outColorspace := rfl
@[simp] theorem State.fail_phase (e : ErrKind) : (s.fail e).phase = .idle := rfl
@[simp] theorem State.fail_src (e : ErrKind) : (s.fail e).src = s.src := rfl
@[simp] theorem State.fail_dst (e : ErrKind) : (s.fail e).dst = s.dst.writeAll 0 (freeBytes s.freeCtr s.dstWindow) := rfl
@[simp] theorem State.fail_host (e : ErrKind) : (s.fail e).host = s.host := rfl
@[simp] theorem State.fail_hostRead (e : ErrKind) : (s.fail e).hostRead = s.hostRead := rfl
@[simp] theorem State.fail_freeCtr (e : ErrKind) : (s.fail e).freeCtr = s.freeCtr + s.dstWindow + workDraws := rfl

/-! `State.complete`: a completed command -/

@[simp] theorem State.complete_status : s.complete.status = Status.completed := rfl
@[simp] theorem State.complete_inWidth : s.complete.inWidth = s.inWidth := rfl
@[simp] theorem State.complete_inHeight : s.complete.inHeight = s.inHeight := rfl
@[simp] theorem State.complete_inChannels : s.complete.inChannels = s.inChannels := rfl
@[simp] theorem State.complete_inColorspace : s.complete.inColorspace = s.inColorspace := rfl
@[simp] theorem State.complete_srcLen : s.complete.srcLen = s.srcLen := rfl
@[simp] theorem State.complete_dstCap : s.complete.dstCap = s.dstCap := rfl
@[simp] theorem State.complete_resultLen : s.complete.resultLen = BitVec.ofNat 64 s.out := rfl
@[simp] theorem State.complete_outWidth : s.complete.outWidth = s.outWidth := rfl
@[simp] theorem State.complete_outHeight : s.complete.outHeight = s.outHeight := rfl
@[simp] theorem State.complete_outChannels : s.complete.outChannels = s.outChannels := rfl
@[simp] theorem State.complete_outColorspace : s.complete.outColorspace = s.outColorspace := rfl
@[simp] theorem State.complete_phase : s.complete.phase = .idle := rfl
@[simp] theorem State.complete_prev : s.complete.prev = s.prev := rfl
@[simp] theorem State.complete_run : s.complete.run = s.run := rfl
@[simp] theorem State.complete_px : s.complete.px = s.px := rfl
@[simp] theorem State.complete_remainingRun : s.complete.remainingRun = s.remainingRun := rfl
@[simp] theorem State.complete_pos : s.complete.pos = s.pos := rfl
@[simp] theorem State.complete_i : s.complete.i = s.i := rfl
@[simp] theorem State.complete_out : s.complete.out = s.out := rfl
@[simp] theorem State.complete_total : s.complete.total = s.total := rfl
@[simp] theorem State.complete_cap : s.complete.cap = s.cap := rfl
@[simp] theorem State.complete_c : s.complete.c = s.c := rfl
@[simp] theorem State.complete_cEff : s.complete.cEff = s.cEff := rfl
@[simp] theorem State.complete_W : s.complete.W = s.W := rfl
@[simp] theorem State.complete_Hgt : s.complete.Hgt = s.Hgt := rfl
@[simp] theorem State.complete_CH : s.complete.CH = s.CH := rfl
@[simp] theorem State.complete_CS : s.complete.CS = s.CS := rfl
@[simp] theorem State.complete_cache : s.complete.cache = s.cache := rfl
@[simp] theorem State.complete_src : s.complete.src = s.src := rfl
@[simp] theorem State.complete_dst : s.complete.dst = s.dst := rfl
@[simp] theorem State.complete_host : s.complete.host = s.host := rfl
@[simp] theorem State.complete_hostRead : s.complete.hostRead = s.hostRead := rfl
@[simp] theorem State.complete_freeCtr : s.complete.freeCtr = s.freeCtr := rfl

/-! `State.start`: a command's start -/

@[simp] theorem State.start_status (p : Phase) : (s.start p).status = Status.running := rfl
@[simp] theorem State.start_inWidth (p : Phase) : (s.start p).inWidth = s.inWidth := rfl
@[simp] theorem State.start_inHeight (p : Phase) : (s.start p).inHeight = s.inHeight := rfl
@[simp] theorem State.start_inChannels (p : Phase) : (s.start p).inChannels = s.inChannels := rfl
@[simp] theorem State.start_inColorspace (p : Phase) : (s.start p).inColorspace = s.inColorspace := rfl
@[simp] theorem State.start_srcLen (p : Phase) : (s.start p).srcLen = s.srcLen := rfl
@[simp] theorem State.start_dstCap (p : Phase) : (s.start p).dstCap = s.dstCap := rfl
@[simp] theorem State.start_resultLen (p : Phase) : (s.start p).resultLen = s.resultLen := rfl
@[simp] theorem State.start_outWidth (p : Phase) : (s.start p).outWidth = s.outWidth := rfl
@[simp] theorem State.start_outHeight (p : Phase) : (s.start p).outHeight = s.outHeight := rfl
@[simp] theorem State.start_outChannels (p : Phase) : (s.start p).outChannels = s.outChannels := rfl
@[simp] theorem State.start_outColorspace (p : Phase) : (s.start p).outColorspace = s.outColorspace := rfl
@[simp] theorem State.start_phase (p : Phase) : (s.start p).phase = p := rfl
@[simp] theorem State.start_prev (p : Phase) : (s.start p).prev = s.prev := rfl
@[simp] theorem State.start_run (p : Phase) : (s.start p).run = s.run := rfl
@[simp] theorem State.start_px (p : Phase) : (s.start p).px = s.px := rfl
@[simp] theorem State.start_remainingRun (p : Phase) : (s.start p).remainingRun = s.remainingRun := rfl
@[simp] theorem State.start_pos (p : Phase) : (s.start p).pos = s.pos := rfl
@[simp] theorem State.start_i (p : Phase) : (s.start p).i = s.i := rfl
@[simp] theorem State.start_out (p : Phase) : (s.start p).out = s.out := rfl
@[simp] theorem State.start_total (p : Phase) : (s.start p).total = s.srcLen := rfl
@[simp] theorem State.start_cap (p : Phase) : (s.start p).cap = s.dstCap := rfl
@[simp] theorem State.start_c (p : Phase) : (s.start p).c = s.c := rfl
@[simp] theorem State.start_cEff (p : Phase) : (s.start p).cEff = s.cEff := rfl
@[simp] theorem State.start_W (p : Phase) : (s.start p).W = s.W := rfl
@[simp] theorem State.start_Hgt (p : Phase) : (s.start p).Hgt = s.Hgt := rfl
@[simp] theorem State.start_CH (p : Phase) : (s.start p).CH = s.CH := rfl
@[simp] theorem State.start_CS (p : Phase) : (s.start p).CS = s.CS := rfl
@[simp] theorem State.start_cache (p : Phase) : (s.start p).cache = s.cache := rfl
@[simp] theorem State.start_src (p : Phase) : (s.start p).src = s.src := rfl
@[simp] theorem State.start_dst (p : Phase) : (s.start p).dst = s.dst := rfl
@[simp] theorem State.start_host (p : Phase) : (s.start p).host = s.host := rfl
@[simp] theorem State.start_hostRead (p : Phase) : (s.start p).hostRead = s.hostRead := rfl
@[simp] theorem State.start_freeCtr (p : Phase) : (s.start p).freeCtr = s.freeCtr := rfl

/-! `State.seedEncoder` -/

@[simp] theorem State.seedEncoder_status (P : Config.Params) : (s.seedEncoder P).status = s.status := rfl
@[simp] theorem State.seedEncoder_inWidth (P : Config.Params) : (s.seedEncoder P).inWidth = s.inWidth := rfl
@[simp] theorem State.seedEncoder_inHeight (P : Config.Params) : (s.seedEncoder P).inHeight = s.inHeight := rfl
@[simp] theorem State.seedEncoder_inChannels (P : Config.Params) : (s.seedEncoder P).inChannels = s.inChannels := rfl
@[simp] theorem State.seedEncoder_inColorspace (P : Config.Params) : (s.seedEncoder P).inColorspace = s.inColorspace := rfl
@[simp] theorem State.seedEncoder_srcLen (P : Config.Params) : (s.seedEncoder P).srcLen = s.srcLen := rfl
@[simp] theorem State.seedEncoder_dstCap (P : Config.Params) : (s.seedEncoder P).dstCap = s.dstCap := rfl
@[simp] theorem State.seedEncoder_resultLen (P : Config.Params) : (s.seedEncoder P).resultLen = s.resultLen := rfl
@[simp] theorem State.seedEncoder_outWidth (P : Config.Params) : (s.seedEncoder P).outWidth = s.outWidth := rfl
@[simp] theorem State.seedEncoder_outHeight (P : Config.Params) : (s.seedEncoder P).outHeight = s.outHeight := rfl
@[simp] theorem State.seedEncoder_outChannels (P : Config.Params) : (s.seedEncoder P).outChannels = s.outChannels := rfl
@[simp] theorem State.seedEncoder_outColorspace (P : Config.Params) : (s.seedEncoder P).outColorspace = s.outColorspace := rfl
@[simp] theorem State.seedEncoder_phase (P : Config.Params) : (s.seedEncoder P).phase = s.phase := rfl
@[simp] theorem State.seedEncoder_prev (P : Config.Params) : (s.seedEncoder P).prev = seedPixel := rfl
@[simp] theorem State.seedEncoder_run (P : Config.Params) : (s.seedEncoder P).run = 0 := rfl
@[simp] theorem State.seedEncoder_px (P : Config.Params) : (s.seedEncoder P).px = s.px := rfl
@[simp] theorem State.seedEncoder_remainingRun (P : Config.Params) : (s.seedEncoder P).remainingRun = s.remainingRun := rfl
@[simp] theorem State.seedEncoder_pos (P : Config.Params) : (s.seedEncoder P).pos = s.pos := rfl
@[simp] theorem State.seedEncoder_i (P : Config.Params) : (s.seedEncoder P).i = 0 := rfl
@[simp] theorem State.seedEncoder_out (P : Config.Params) : (s.seedEncoder P).out = 0 := rfl
@[simp] theorem State.seedEncoder_total (P : Config.Params) : (s.seedEncoder P).total = s.total := rfl
@[simp] theorem State.seedEncoder_cap (P : Config.Params) : (s.seedEncoder P).cap = s.cap := rfl
@[simp] theorem State.seedEncoder_c (P : Config.Params) : (s.seedEncoder P).c = s.c := rfl
@[simp] theorem State.seedEncoder_cEff (P : Config.Params) : (s.seedEncoder P).cEff = s.cEff := rfl
@[simp] theorem State.seedEncoder_W (P : Config.Params) : (s.seedEncoder P).W = s.W := rfl
@[simp] theorem State.seedEncoder_Hgt (P : Config.Params) : (s.seedEncoder P).Hgt = s.Hgt := rfl
@[simp] theorem State.seedEncoder_CH (P : Config.Params) : (s.seedEncoder P).CH = s.CH := rfl
@[simp] theorem State.seedEncoder_CS (P : Config.Params) : (s.seedEncoder P).CS = s.CS := rfl
@[simp] theorem State.seedEncoder_cache (P : Config.Params) : (s.seedEncoder P).cache = P.cacheSeed := rfl
@[simp] theorem State.seedEncoder_src (P : Config.Params) : (s.seedEncoder P).src = s.src := rfl
@[simp] theorem State.seedEncoder_dst (P : Config.Params) : (s.seedEncoder P).dst = s.dst := rfl
@[simp] theorem State.seedEncoder_host (P : Config.Params) : (s.seedEncoder P).host = s.host := rfl
@[simp] theorem State.seedEncoder_hostRead (P : Config.Params) : (s.seedEncoder P).hostRead = s.hostRead := rfl
@[simp] theorem State.seedEncoder_freeCtr (P : Config.Params) : (s.seedEncoder P).freeCtr = s.freeCtr := rfl

/-! `State.seedDecoder` -/

@[simp] theorem State.seedDecoder_status (P : Config.Params) : (s.seedDecoder P).status = s.status := rfl
@[simp] theorem State.seedDecoder_inWidth (P : Config.Params) : (s.seedDecoder P).inWidth = s.inWidth := rfl
@[simp] theorem State.seedDecoder_inHeight (P : Config.Params) : (s.seedDecoder P).inHeight = s.inHeight := rfl
@[simp] theorem State.seedDecoder_inChannels (P : Config.Params) : (s.seedDecoder P).inChannels = s.inChannels := rfl
@[simp] theorem State.seedDecoder_inColorspace (P : Config.Params) : (s.seedDecoder P).inColorspace = s.inColorspace := rfl
@[simp] theorem State.seedDecoder_srcLen (P : Config.Params) : (s.seedDecoder P).srcLen = s.srcLen := rfl
@[simp] theorem State.seedDecoder_dstCap (P : Config.Params) : (s.seedDecoder P).dstCap = s.dstCap := rfl
@[simp] theorem State.seedDecoder_resultLen (P : Config.Params) : (s.seedDecoder P).resultLen = s.resultLen := rfl
@[simp] theorem State.seedDecoder_outWidth (P : Config.Params) : (s.seedDecoder P).outWidth = s.outWidth := rfl
@[simp] theorem State.seedDecoder_outHeight (P : Config.Params) : (s.seedDecoder P).outHeight = s.outHeight := rfl
@[simp] theorem State.seedDecoder_outChannels (P : Config.Params) : (s.seedDecoder P).outChannels = s.outChannels := rfl
@[simp] theorem State.seedDecoder_outColorspace (P : Config.Params) : (s.seedDecoder P).outColorspace = s.outColorspace := rfl
@[simp] theorem State.seedDecoder_phase (P : Config.Params) : (s.seedDecoder P).phase = s.phase := rfl
@[simp] theorem State.seedDecoder_prev (P : Config.Params) : (s.seedDecoder P).prev = s.prev := rfl
@[simp] theorem State.seedDecoder_run (P : Config.Params) : (s.seedDecoder P).run = s.run := rfl
@[simp] theorem State.seedDecoder_px (P : Config.Params) : (s.seedDecoder P).px = seedPixel := rfl
@[simp] theorem State.seedDecoder_remainingRun (P : Config.Params) : (s.seedDecoder P).remainingRun = 0 := rfl
@[simp] theorem State.seedDecoder_pos (P : Config.Params) : (s.seedDecoder P).pos = headerSize := rfl
@[simp] theorem State.seedDecoder_i (P : Config.Params) : (s.seedDecoder P).i = 0 := rfl
@[simp] theorem State.seedDecoder_out (P : Config.Params) : (s.seedDecoder P).out = 0 := rfl
@[simp] theorem State.seedDecoder_total (P : Config.Params) : (s.seedDecoder P).total = s.total := rfl
@[simp] theorem State.seedDecoder_cap (P : Config.Params) : (s.seedDecoder P).cap = s.cap := rfl
@[simp] theorem State.seedDecoder_c (P : Config.Params) : (s.seedDecoder P).c = s.c := rfl
@[simp] theorem State.seedDecoder_cEff (P : Config.Params) : (s.seedDecoder P).cEff = s.cEff := rfl
@[simp] theorem State.seedDecoder_W (P : Config.Params) : (s.seedDecoder P).W = s.W := rfl
@[simp] theorem State.seedDecoder_Hgt (P : Config.Params) : (s.seedDecoder P).Hgt = s.Hgt := rfl
@[simp] theorem State.seedDecoder_CH (P : Config.Params) : (s.seedDecoder P).CH = s.CH := rfl
@[simp] theorem State.seedDecoder_CS (P : Config.Params) : (s.seedDecoder P).CS = s.CS := rfl
@[simp] theorem State.seedDecoder_cache (P : Config.Params) : (s.seedDecoder P).cache = P.cacheSeed := rfl
@[simp] theorem State.seedDecoder_src (P : Config.Params) : (s.seedDecoder P).src = s.src := rfl
@[simp] theorem State.seedDecoder_dst (P : Config.Params) : (s.seedDecoder P).dst = s.dst := rfl
@[simp] theorem State.seedDecoder_host (P : Config.Params) : (s.seedDecoder P).host = s.host := rfl
@[simp] theorem State.seedDecoder_hostRead (P : Config.Params) : (s.seedDecoder P).hostRead = s.hostRead := rfl
@[simp] theorem State.seedDecoder_freeCtr (P : Config.Params) : (s.seedDecoder P).freeCtr = s.freeCtr := rfl

/-! `State.latchDescriptor` -/

@[simp] theorem State.latchDescriptor_status (d : Descriptor) : (s.latchDescriptor d).status = s.status := rfl
@[simp] theorem State.latchDescriptor_inWidth (d : Descriptor) : (s.latchDescriptor d).inWidth = s.inWidth := rfl
@[simp] theorem State.latchDescriptor_inHeight (d : Descriptor) : (s.latchDescriptor d).inHeight = s.inHeight := rfl
@[simp] theorem State.latchDescriptor_inChannels (d : Descriptor) : (s.latchDescriptor d).inChannels = s.inChannels := rfl
@[simp] theorem State.latchDescriptor_inColorspace (d : Descriptor) : (s.latchDescriptor d).inColorspace = s.inColorspace := rfl
@[simp] theorem State.latchDescriptor_srcLen (d : Descriptor) : (s.latchDescriptor d).srcLen = s.srcLen := rfl
@[simp] theorem State.latchDescriptor_dstCap (d : Descriptor) : (s.latchDescriptor d).dstCap = s.dstCap := rfl
@[simp] theorem State.latchDescriptor_resultLen (d : Descriptor) : (s.latchDescriptor d).resultLen = s.resultLen := rfl
@[simp] theorem State.latchDescriptor_outWidth (d : Descriptor) : (s.latchDescriptor d).outWidth = s.outWidth := rfl
@[simp] theorem State.latchDescriptor_outHeight (d : Descriptor) : (s.latchDescriptor d).outHeight = s.outHeight := rfl
@[simp] theorem State.latchDescriptor_outChannels (d : Descriptor) : (s.latchDescriptor d).outChannels = s.outChannels := rfl
@[simp] theorem State.latchDescriptor_outColorspace (d : Descriptor) : (s.latchDescriptor d).outColorspace = s.outColorspace := rfl
@[simp] theorem State.latchDescriptor_phase (d : Descriptor) : (s.latchDescriptor d).phase = s.phase := rfl
@[simp] theorem State.latchDescriptor_prev (d : Descriptor) : (s.latchDescriptor d).prev = s.prev := rfl
@[simp] theorem State.latchDescriptor_run (d : Descriptor) : (s.latchDescriptor d).run = s.run := rfl
@[simp] theorem State.latchDescriptor_px (d : Descriptor) : (s.latchDescriptor d).px = s.px := rfl
@[simp] theorem State.latchDescriptor_remainingRun (d : Descriptor) : (s.latchDescriptor d).remainingRun = s.remainingRun := rfl
@[simp] theorem State.latchDescriptor_pos (d : Descriptor) : (s.latchDescriptor d).pos = s.pos := rfl
@[simp] theorem State.latchDescriptor_i (d : Descriptor) : (s.latchDescriptor d).i = s.i := rfl
@[simp] theorem State.latchDescriptor_out (d : Descriptor) : (s.latchDescriptor d).out = s.out := rfl
@[simp] theorem State.latchDescriptor_total (d : Descriptor) : (s.latchDescriptor d).total = s.total := rfl
@[simp] theorem State.latchDescriptor_cap (d : Descriptor) : (s.latchDescriptor d).cap = s.cap := rfl
@[simp] theorem State.latchDescriptor_c (d : Descriptor) : (s.latchDescriptor d).c = s.c := rfl
@[simp] theorem State.latchDescriptor_cEff (d : Descriptor) : (s.latchDescriptor d).cEff = effectiveChannels s.c d.CH := rfl
@[simp] theorem State.latchDescriptor_W (d : Descriptor) : (s.latchDescriptor d).W = d.W := rfl
@[simp] theorem State.latchDescriptor_Hgt (d : Descriptor) : (s.latchDescriptor d).Hgt = d.Hgt := rfl
@[simp] theorem State.latchDescriptor_CH (d : Descriptor) : (s.latchDescriptor d).CH = d.CH := rfl
@[simp] theorem State.latchDescriptor_CS (d : Descriptor) : (s.latchDescriptor d).CS = d.CS := rfl
@[simp] theorem State.latchDescriptor_cache (d : Descriptor) : (s.latchDescriptor d).cache = s.cache := rfl
@[simp] theorem State.latchDescriptor_src (d : Descriptor) : (s.latchDescriptor d).src = s.src := rfl
@[simp] theorem State.latchDescriptor_dst (d : Descriptor) : (s.latchDescriptor d).dst = s.dst := rfl
@[simp] theorem State.latchDescriptor_host (d : Descriptor) : (s.latchDescriptor d).host = s.host := rfl
@[simp] theorem State.latchDescriptor_hostRead (d : Descriptor) : (s.latchDescriptor d).hostRead = s.hostRead := rfl
@[simp] theorem State.latchDescriptor_freeCtr (d : Descriptor) : (s.latchDescriptor d).freeCtr = s.freeCtr := rfl

/-! `State.completeDecode` -/

@[simp] theorem State.completeDecode_status : s.completeDecode.status = Status.completed := rfl
@[simp] theorem State.completeDecode_inWidth : s.completeDecode.inWidth = s.inWidth := rfl
@[simp] theorem State.completeDecode_inHeight : s.completeDecode.inHeight = s.inHeight := rfl
@[simp] theorem State.completeDecode_inChannels : s.completeDecode.inChannels = s.inChannels := rfl
@[simp] theorem State.completeDecode_inColorspace : s.completeDecode.inColorspace = s.inColorspace := rfl
@[simp] theorem State.completeDecode_srcLen : s.completeDecode.srcLen = s.srcLen := rfl
@[simp] theorem State.completeDecode_dstCap : s.completeDecode.dstCap = s.dstCap := rfl
@[simp] theorem State.completeDecode_resultLen : s.completeDecode.resultLen = BitVec.ofNat 64 s.out := rfl
@[simp] theorem State.completeDecode_outWidth : s.completeDecode.outWidth = s.W := rfl
@[simp] theorem State.completeDecode_outHeight : s.completeDecode.outHeight = s.Hgt := rfl
@[simp] theorem State.completeDecode_outChannels : s.completeDecode.outChannels = s.CH := rfl
@[simp] theorem State.completeDecode_outColorspace : s.completeDecode.outColorspace = s.CS := rfl
@[simp] theorem State.completeDecode_phase : s.completeDecode.phase = .idle := rfl
@[simp] theorem State.completeDecode_prev : s.completeDecode.prev = s.prev := rfl
@[simp] theorem State.completeDecode_run : s.completeDecode.run = s.run := rfl
@[simp] theorem State.completeDecode_px : s.completeDecode.px = s.px := rfl
@[simp] theorem State.completeDecode_remainingRun : s.completeDecode.remainingRun = s.remainingRun := rfl
@[simp] theorem State.completeDecode_pos : s.completeDecode.pos = s.pos := rfl
@[simp] theorem State.completeDecode_i : s.completeDecode.i = s.i := rfl
@[simp] theorem State.completeDecode_out : s.completeDecode.out = s.out := rfl
@[simp] theorem State.completeDecode_total : s.completeDecode.total = s.total := rfl
@[simp] theorem State.completeDecode_cap : s.completeDecode.cap = s.cap := rfl
@[simp] theorem State.completeDecode_c : s.completeDecode.c = s.c := rfl
@[simp] theorem State.completeDecode_cEff : s.completeDecode.cEff = s.cEff := rfl
@[simp] theorem State.completeDecode_W : s.completeDecode.W = s.W := rfl
@[simp] theorem State.completeDecode_Hgt : s.completeDecode.Hgt = s.Hgt := rfl
@[simp] theorem State.completeDecode_CH : s.completeDecode.CH = s.CH := rfl
@[simp] theorem State.completeDecode_CS : s.completeDecode.CS = s.CS := rfl
@[simp] theorem State.completeDecode_cache : s.completeDecode.cache = s.cache := rfl
@[simp] theorem State.completeDecode_src : s.completeDecode.src = s.src := rfl
@[simp] theorem State.completeDecode_dst : s.completeDecode.dst = s.dst := rfl
@[simp] theorem State.completeDecode_host : s.completeDecode.host = s.host := rfl
@[simp] theorem State.completeDecode_hostRead : s.completeDecode.hostRead = s.hostRead := rfl
@[simp] theorem State.completeDecode_freeCtr : s.completeDecode.freeCtr = s.freeCtr := rfl

/-! `State.withHost`: the host's pending moves -/

@[simp] theorem State.withHost_status (ms : List HostMove) : (s.withHost ms).status = s.status := rfl
@[simp] theorem State.withHost_inWidth (ms : List HostMove) : (s.withHost ms).inWidth = s.inWidth := rfl
@[simp] theorem State.withHost_inHeight (ms : List HostMove) : (s.withHost ms).inHeight = s.inHeight := rfl
@[simp] theorem State.withHost_inChannels (ms : List HostMove) : (s.withHost ms).inChannels = s.inChannels := rfl
@[simp] theorem State.withHost_inColorspace (ms : List HostMove) : (s.withHost ms).inColorspace = s.inColorspace := rfl
@[simp] theorem State.withHost_srcLen (ms : List HostMove) : (s.withHost ms).srcLen = s.srcLen := rfl
@[simp] theorem State.withHost_dstCap (ms : List HostMove) : (s.withHost ms).dstCap = s.dstCap := rfl
@[simp] theorem State.withHost_resultLen (ms : List HostMove) : (s.withHost ms).resultLen = s.resultLen := rfl
@[simp] theorem State.withHost_outWidth (ms : List HostMove) : (s.withHost ms).outWidth = s.outWidth := rfl
@[simp] theorem State.withHost_outHeight (ms : List HostMove) : (s.withHost ms).outHeight = s.outHeight := rfl
@[simp] theorem State.withHost_outChannels (ms : List HostMove) : (s.withHost ms).outChannels = s.outChannels := rfl
@[simp] theorem State.withHost_outColorspace (ms : List HostMove) : (s.withHost ms).outColorspace = s.outColorspace := rfl
@[simp] theorem State.withHost_phase (ms : List HostMove) : (s.withHost ms).phase = s.phase := rfl
@[simp] theorem State.withHost_prev (ms : List HostMove) : (s.withHost ms).prev = s.prev := rfl
@[simp] theorem State.withHost_run (ms : List HostMove) : (s.withHost ms).run = s.run := rfl
@[simp] theorem State.withHost_px (ms : List HostMove) : (s.withHost ms).px = s.px := rfl
@[simp] theorem State.withHost_remainingRun (ms : List HostMove) : (s.withHost ms).remainingRun = s.remainingRun := rfl
@[simp] theorem State.withHost_pos (ms : List HostMove) : (s.withHost ms).pos = s.pos := rfl
@[simp] theorem State.withHost_i (ms : List HostMove) : (s.withHost ms).i = s.i := rfl
@[simp] theorem State.withHost_out (ms : List HostMove) : (s.withHost ms).out = s.out := rfl
@[simp] theorem State.withHost_total (ms : List HostMove) : (s.withHost ms).total = s.total := rfl
@[simp] theorem State.withHost_cap (ms : List HostMove) : (s.withHost ms).cap = s.cap := rfl
@[simp] theorem State.withHost_c (ms : List HostMove) : (s.withHost ms).c = s.c := rfl
@[simp] theorem State.withHost_cEff (ms : List HostMove) : (s.withHost ms).cEff = s.cEff := rfl
@[simp] theorem State.withHost_W (ms : List HostMove) : (s.withHost ms).W = s.W := rfl
@[simp] theorem State.withHost_Hgt (ms : List HostMove) : (s.withHost ms).Hgt = s.Hgt := rfl
@[simp] theorem State.withHost_CH (ms : List HostMove) : (s.withHost ms).CH = s.CH := rfl
@[simp] theorem State.withHost_CS (ms : List HostMove) : (s.withHost ms).CS = s.CS := rfl
@[simp] theorem State.withHost_cache (ms : List HostMove) : (s.withHost ms).cache = s.cache := rfl
@[simp] theorem State.withHost_src (ms : List HostMove) : (s.withHost ms).src = s.src := rfl
@[simp] theorem State.withHost_dst (ms : List HostMove) : (s.withHost ms).dst = s.dst := rfl
@[simp] theorem State.withHost_host (ms : List HostMove) : (s.withHost ms).host = ms := rfl
@[simp] theorem State.withHost_hostRead (ms : List HostMove) : (s.withHost ms).hostRead = s.hostRead := rfl
@[simp] theorem State.withHost_freeCtr (ms : List HostMove) : (s.withHost ms).freeCtr = s.freeCtr := rfl

/-! `State.hardReset`: a host reset -/

@[simp] theorem State.hardReset_status : s.hardReset.status = 0 := rfl
@[simp] theorem State.hardReset_inWidth : s.hardReset.inWidth = 0 := rfl
@[simp] theorem State.hardReset_inHeight : s.hardReset.inHeight = 0 := rfl
@[simp] theorem State.hardReset_inChannels : s.hardReset.inChannels = 0 := rfl
@[simp] theorem State.hardReset_inColorspace : s.hardReset.inColorspace = 0 := rfl
@[simp] theorem State.hardReset_srcLen : s.hardReset.srcLen = 0 := rfl
@[simp] theorem State.hardReset_dstCap : s.hardReset.dstCap = 0 := rfl
@[simp] theorem State.hardReset_resultLen : s.hardReset.resultLen = 0 := rfl
@[simp] theorem State.hardReset_outWidth : s.hardReset.outWidth = 0 := rfl
@[simp] theorem State.hardReset_outHeight : s.hardReset.outHeight = 0 := rfl
@[simp] theorem State.hardReset_outChannels : s.hardReset.outChannels = 0 := rfl
@[simp] theorem State.hardReset_outColorspace : s.hardReset.outColorspace = 0 := rfl
@[simp] theorem State.hardReset_phase : s.hardReset.phase = .idle := rfl
@[simp] theorem State.hardReset_src : s.hardReset.src = s.src := by
  unfold State.hardReset; split <;> rfl
@[simp] theorem State.hardReset_host : s.hardReset.host = s.host := by
  unfold State.hardReset; split <;> rfl
@[simp] theorem State.hardReset_hostRead : s.hardReset.hostRead = s.hostRead := by
  unfold State.hardReset; split <;> rfl

end Sys2Proof.Machine
end

