-- ==== Sys2Proof/Laws/Memory.lean ====
section
/-! SUPPORT. What the memory operations do: a read after a write, and that each keeps the canonical
form. -/

namespace Sys2Proof.Machine

/-! ## Reading after writing -/

theorem lookupCell_insertCell (cs : List Host.Cell) (a b : Nat) (v : Byte) :
    lookupCell (insertCell a v cs) b = if b = a then some v else lookupCell cs b := by
  induction cs with
  | nil => simp [insertCell, lookupCell]
  | cons c cs ih =>
    obtain ⟨d, x⟩ := c
    by_cases hlt : a < d
    · simp [insertCell, hlt, lookupCell]
    · by_cases heq : a = d
      · subst heq
        by_cases hb : b = a <;> simp [insertCell, lookupCell, hb]
      · by_cases hb : b = a
        · subst hb; simp [insertCell, hlt, heq, lookupCell, ih]
        · simp [insertCell, hlt, heq, lookupCell, ih, hb]

@[simp] theorem Memory.write_size (m : Memory) (a : Nat) (v : Byte) :
    (m.write a v).size = m.size := rfl

@[simp] theorem Memory.writeAll_size (m : Memory) (a : Nat) (vs : List Byte) :
    (m.writeAll a vs).size = m.size := by
  induction vs generalizing m a with
  | nil => rfl
  | cons v vs ih => simp [Memory.writeAll, ih]

theorem Memory.lookup_write (m : Memory) (a b : Nat) (v : Byte) :
    lookupCell (m.write a v).cells b = if b = a then some v else lookupCell m.cells b :=
  lookupCell_insertCell m.cells a b v

/-- A write of a block leaves every address outside it alone. -/
theorem Memory.lookup_writeAll_outside (m : Memory) (a b : Nat) (vs : List Byte)
    (h : b < a ∨ a + vs.length ≤ b) :
    lookupCell (m.writeAll a vs).cells b = lookupCell m.cells b := by
  induction vs generalizing m a with
  | nil => rfl
  | cons v vs ih =>
    have hne : b ≠ a := by simp at h; omega
    rw [Memory.writeAll, ih _ _ (by simp at h; omega), Memory.lookup_write, if_neg hne]

/-- A write of a block lists each of its bytes. -/
theorem Memory.lookup_writeAll_inside (m : Memory) (a k : Nat) (vs : List Byte)
    (h : k < vs.length) : lookupCell (m.writeAll a vs).cells (a + k) = some vs[k] := by
  induction vs generalizing m a k with
  | nil => simp at h
  | cons v vs ih =>
    cases k with
    | zero => rw [Memory.writeAll, Memory.lookup_writeAll_outside _ _ _ _ (by omega),
        Nat.add_zero, Memory.lookup_write, if_pos rfl, List.getElem_cons_zero]
    | succ k =>
      have := ih (m.write a v) (a + 1) k (by simpa using h)
      rw [Memory.writeAll, List.getElem_cons_succ, ← this]
      congr 1
      omega

/-! ## The canonical form -/

theorem insertCell_mem (cs : List Host.Cell) (a : Nat) (v : Byte) (x : Host.Cell)
    (h : x ∈ insertCell a v cs) : x = (a, v) ∨ x ∈ cs := by
  induction cs with
  | nil => simpa [insertCell] using h
  | cons c cs ih =>
    obtain ⟨d, y⟩ := c
    simp only [insertCell] at h
    split at h
    · simpa using h
    · split at h
      · simp only [List.mem_cons] at h ⊢
        tauto
      · simp only [List.mem_cons] at h ⊢
        rcases h with h | h
        · exact .inr (.inl h)
        · rcases ih h with h | h
          · exact .inl h
          · exact .inr (.inr h)

theorem insertCell_rising (cs : List Host.Cell) (a : Nat) (v : Byte)
    (h : cs.Pairwise fun x y => x.1 < y.1) :
    (insertCell a v cs).Pairwise fun x y => x.1 < y.1 := by
  induction cs with
  | nil => simp [insertCell]
  | cons c cs ih =>
    obtain ⟨d, y⟩ := c
    obtain ⟨hd, ht⟩ := List.pairwise_cons.1 h
    simp only [insertCell]
    split
    · rename_i hlt
      refine List.pairwise_cons.2 ⟨fun x hx => ?_, h⟩
      rcases List.mem_cons.1 hx with rfl | hx
      · exact hlt
      · exact Nat.lt_trans hlt (hd x hx)
    · split
      · rename_i heq
        exact List.pairwise_cons.2 ⟨fun x hx => heq ▸ hd x hx, ht⟩
      · refine List.pairwise_cons.2 ⟨fun x hx => ?_, ih ht⟩
        rcases insertCell_mem _ _ _ _ hx with rfl | hx
        · simp only; omega
        · exact hd x hx

/-- Storing a byte keeps the canonical form. -/
theorem Memory.wf_write (m : Memory) (a : Nat) (v : Byte) (h : m.wf) (ha : a < m.size) :
    (m.write a v).wf := by
  refine ⟨insertCell_rising _ _ _ h.1, fun x hx => ?_⟩
  rcases insertCell_mem _ _ _ _ hx with rfl | hx
  · exact ha
  · exact h.2 x hx

/-- Storing a block keeps the canonical form. -/
theorem Memory.wf_writeAll (m : Memory) (a : Nat) (vs : List Byte) (h : m.wf)
    (ha : a + vs.length ≤ m.size) : (m.writeAll a vs).wf := by
  induction vs generalizing m a with
  | nil => exact h
  | cons v vs ih =>
    simp only [List.length_cons] at ha
    exact ih _ _ (m.wf_write a v h (by omega)) (by simp only [Memory.write_size]; omega)

/-- A memory at power-on is in canonical form. -/
theorem Memory.wf_blank (n : Nat) : (Memory.blank n).wf := by
  simp [Memory.wf, Memory.blank]

/-- `State.reset`'s memories are in canonical form. -/
theorem State.reset_mem_wf : State.reset.src.wf ∧ State.reset.dst.wf :=
  ⟨Memory.wf_blank _, Memory.wf_blank _⟩

/-! ## Lengths, and reads through the state -/

@[simp] theorem freeBytes_length (k n : Nat) : (freeBytes k n).length = n := by
  induction n generalizing k with
  | zero => rfl
  | succ n ih => simp [freeBytes, ih]

@[simp] theorem State.srcBytes_length (s : State) (a n : Nat) : (s.srcBytes a n).length = n := by
  induction n generalizing a with
  | zero => rfl
  | succ n ih => simp [State.srcBytes, ih]

theorem State.srcBytes_get (s : State) (a n k : Nat) (h : k < (s.srcBytes a n).length) :
    (s.srcBytes a n)[k] = s.srcByte (a + k) := by
  induction n generalizing a k with
  | zero => simp at h
  | succ n ih =>
    cases k with
    | zero => rfl
    | succ k =>
      simp only [State.srcBytes, List.getElem_cons_succ]
      rw [ih (a + 1) k (by simpa using h)]
      congr 1
      omega

/-- A DST byte outside the appended bytes reads as before. -/
theorem State.dstByte_append_outside (s : State) (bs : List Byte) (b : Nat)
    (h : b < s.out ∨ s.out + bs.length ≤ b) : (s.append bs).dstByte b = s.dstByte b := by
  simp [State.dstByte, Memory.lookup_writeAll_outside _ _ _ _ h]

/-- An appended byte reads back. -/
theorem State.dstByte_append_inside (s : State) (bs : List Byte) (k : Nat) (h : k < bs.length) :
    (s.append bs).dstByte (s.out + k) = bs[k] := by
  simp [State.dstByte, Memory.lookup_writeAll_inside _ _ _ _ h]

end Sys2Proof.Machine
end

