-- ==== Sys2Proof/Laws/Ops.lean ====
section
/-! SUPPORT. One lemma per shared operation, saying once everything it can do: `push`, `emitPixel`,
the six chunks, the engine's phases, and the two ways `step` goes. -/

namespace Sys2Proof.Machine

/-! ## push and emitPixel -/

/-- `push` answers a next state exactly when there is room, and then it is the appended state. -/
theorem push_next_iff (bs : List Byte) (s t : State) :
    push bs s = .next t ↔ s.out + bs.length ≤ s.dst.size ∧ t = s.append bs := by
  unfold push
  split <;> rename_i h <;> simp [h, eq_comm]

theorem push_room (bs : List Byte) (s : State) (h : s.out + bs.length ≤ s.dst.size) :
    push bs s = .next (s.append bs) := if_pos h

theorem push_noRoom (bs : List Byte) (s : State) (h : ¬ s.out + bs.length ≤ s.dst.size) :
    push bs s = .fault .engineWriteOutside := if_neg h

@[simp] theorem pixelBytes_length (ch : Byte) (p : Pixel) :
    (pixelBytes ch p).length = pixelStride ch := by
  unfold pixelBytes pixelStride
  split <;> rfl

/-- What `emitPixel` can do: it needs room for the pixel, counts it, and appends its bytes. -/
theorem emitPixel_next_iff (s t : State) :
    emitPixel s = .next t ↔ s.out + pixelStride s.cEff ≤ s.dst.size ∧
      t = ({ s with i := s.i + 1 } : State).append (pixelBytes s.cEff s.px) := by
  unfold emitPixel
  rw [push_next_iff, pixelBytes_length]

/-! ## The chunks -/

/-- The state a chunk's own rule gives, before the pixel is emitted. -/
def afterChunk (P : Config.Params) : Instr → State → State
  | .rgb r g b, s => (s.took 4 ⟨r, g, b, s.px.a⟩).refresh P
  | .rgba r g b a, s => (s.took 5 ⟨r, g, b, a⟩).refresh P
  | .index k, s => s.took 1 s.cache[k]
  | .diff dr dg db, s => (s.took 1 (applyDiff s.px dr dg db)).refresh P
  | .luma dg drg dbg, s => (s.took 2 (applyLuma s.px dg drg dbg)).refresh P
  | .run n, s => ({ s.took 1 s.px with remainingRun := BitVec.ofNat 6 (n - 1) } : State).refresh P
  | .encode, s => s
  | .decode, s => s

/-- The instructions at this hardware's parameters are `exec`. -/
theorem execWith_block : execWith block = exec := by
  funext i s
  cases i <;> rfl

/-- Every chunk emits the pixel its rule gives, for any parameters. -/
theorem execWith_chunk (P : Config.Params) (i : Instr) (s : State) (h : i.isChunk = true) :
    execWith P i s = emitPixel (afterChunk P i s) := by
  cases i <;> first | rfl | simp [Instr.isChunk] at h

/-- Every chunk emits the pixel its rule gives. -/
theorem exec_chunk (i : Instr) (s : State) (h : i.isChunk = true) :
    exec i s = emitPixel (afterChunk block i s) := by
  rw [← execWith_block, execWith_chunk block i s h]

/-- A chunk's rule changes only `px`, `pos`, the cache and `remaining_run`. -/
theorem afterChunk_frame (P : Config.Params) (i : Instr) (s : State) :
    ∃ p q rr ca, afterChunk P i s =
      { s with px := p, pos := q, remainingRun := rr, cache := ca } := by
  cases i <;> exact ⟨_, _, _, _, rfl⟩

/-! ## Cache -/

@[simp] theorem cachePut_same (ca : Cache) (k : Slot) (p : Pixel) : (cachePut ca k p)[k] = p := by
  simp [cachePut]

theorem cachePut_other (ca : Cache) (k j : Slot) (p : Pixel) (h : j ≠ k) :
    (cachePut ca k p)[j] = ca[j] := by
  have : k.val ≠ j.val := fun e => h (Fin.ext e.symm)
  simp [cachePut, this]

/-- Writing a pixel to its own slot keeps the slot invariant (`40_cache_hash.md` rule R139). -/
theorem SlotOk_cachePut (P : Config.Params) (ca : Cache) (p : Pixel) (h : SlotOk P ca) :
    SlotOk P (cachePut ca (slot P p) p) := by
  intro k
  by_cases hk : k = slot P p
  · subst hk
    exact .inr (by rw [cachePut_same])
  · rw [cachePut_other _ _ _ _ hk]
    exact h k

/-! ## Step and engine -/

/-- The machine is the block at this hardware's parameters. -/
theorem stepOf_block : stepOf block = step := by
  funext s
  rw [stepOf, execWith_block]
  rfl

/-- With nothing pending, a step is the engine's. -/
theorem stepWith_engine (P : Config.Params) (ex : Instr → State → Result) (s : State)
    (h : s.host = []) : stepWith P ex s = engineStepWith P ex s := by
  unfold stepWith
  rw [h]

/-- With moves pending, a step is the host's next move. -/
theorem stepWith_host (P : Config.Params) (ex : Instr → State → Result) (s : State) (m : HostMove)
    (ms : List HostMove) (h : s.host = m :: ms) :
    stepWith P ex s = hostMoveWith P ex m (s.withHost ms) := by
  unfold stepWith
  rw [h]

/-- With nothing pending, a step of this hardware is its engine's. -/
theorem step_engine (s : State) (h : s.host = []) : step s = engineStep s :=
  stepWith_engine block exec s h

/-- With moves pending, a step of this hardware is the host's next move. -/
theorem step_host (s : State) (m : HostMove) (ms : List HostMove) (h : s.host = m :: ms) :
    step s = hostMove m (s.withHost ms) :=
  stepWith_host block exec s m ms h

/-- What E_CHECK can do: fail, or seed the encoder with every check passed. -/
theorem eCheck_cases (P : Config.Params) (s : State) :
    (∃ e, eCheck P s = s.fail e) ∨
      (eCheck P s = { s.seedEncoder P with phase := .eHeader } ∧ s.EncodeOk P) := by
  unfold eCheck
  split
  · exact .inl ⟨_, rfl⟩
  · rename_i hv
    split
    · exact .inl ⟨_, rfl⟩
    · rename_i hs
      split
      · exact .inl ⟨_, rfl⟩
      · rename_i hl
        split
        · exact .inl ⟨_, rfl⟩
        · rename_i hc
          exact .inr ⟨rfl, by simpa using hv, by omega, by omega, by omega, by omega⟩

/-- What D_CHECK can do. -/
theorem dCheck_cases (s : State) :
    (∃ e, dCheck s = s.fail e) ∨
      (dCheck s = { s with phase := .dHeader } ∧ (s.c = 0 ∨ s.c = 3 ∨ s.c = 4) ∧
        s.total.toNat ≤ s.src.size ∧ s.cap.toNat ≤ s.dst.size) := by
  unfold dCheck
  split
  · exact .inl ⟨_, rfl⟩
  · rename_i hc
    split
    · exact .inl ⟨_, rfl⟩
    · exact .inr ⟨rfl, not_not.1 hc, by omega, by omega⟩

/-- What D_HEADER can do, when it answers a next state. -/
theorem dHeader_cases (P : Config.Params) (s t : State) (h : dHeader P s = .next t) :
    (∃ e, t = s.fail e) ∨
      ∃ d, parseHeader P (s.srcBytes 0 headerSize) = some d ∧ 22 ≤ s.total.toNat ∧
        d.W.toNat * d.Hgt.toNat * (effectiveChannels s.c d.CH).toNat ≤ s.cap.toNat ∧
        t = { (s.latchDescriptor d).seedDecoder P with phase := .dPixels } := by
  unfold dHeader at h
  split at h
  · exact .inl ⟨_, (Host.Outcome.next.inj h).symm⟩
  · rename_i h22
    split at h
    · cases h
    · split at h
      · exact .inl ⟨_, (Host.Outcome.next.inj h).symm⟩
      · rename_i d hd
        split at h
        · exact .inl ⟨_, (Host.Outcome.next.inj h).symm⟩
        · exact .inr ⟨d, hd, by omega, by omega, (Host.Outcome.next.inj h).symm⟩

/-- What D_PIXELS can do, when it answers a next state. -/
theorem dPixels_cases (ex : Instr → State → Result) (s t : State)
    (h : dPixels ex s = .next t) :
    (s.pixels ≤ s.i ∧ t = s.completeDecode) ∨
      (s.i < s.pixels ∧
        ((s.remainingRun ≠ 0 ∧ repeatPixel s = .next t) ∨
          (s.remainingRun = 0 ∧ fetchChunk s = .truncated ∧ t = s.fail .formatError) ∨
          ∃ i, s.remainingRun = 0 ∧ fetchChunk s = .chunk i ∧ ex i s = .next t)) := by
  unfold dPixels at h
  split at h
  · rename_i hi
    refine .inr ⟨hi, ?_⟩
    split at h
    · rename_i hr
      exact .inl ⟨hr, h⟩
    · rename_i hr
      have hr : s.remainingRun = 0 := not_not.1 hr
      unfold runChunk at h
      split at h
      · rename_i i hf
        exact .inr (.inr ⟨i, hr, hf, h⟩)
      · rename_i hf
        exact .inr (.inl ⟨hr, hf, (Host.Outcome.next.inj h).symm⟩)
      · cases h
  · exact .inl ⟨by omega, (Host.Outcome.next.inj h).symm⟩

/-- What E_PIXELS can do, when it answers a next state. -/
theorem ePixels_cases (P : Config.Params) (s t : State) (h : ePixels P s = .next t) :
    (s.pixels ≤ s.i ∧ t = { s with phase := .eFlush }) ∨
      ∃ e, e = encodePixel P s.CH s.fetchPixel s.prev s.run s.cache ∧ s.i < s.pixels ∧
        (s.i + 1) * pixelStride s.CH ≤ s.src.size ∧
        s.out + (chunkBytes e.chunks).length ≤ s.dst.size ∧
        t = ({ s with i := s.i + 1, prev := e.prev, run := e.run, cache := e.cache } : State).append
          (chunkBytes e.chunks) := by
  unfold ePixels at h
  split at h
  · rename_i hi
    unfold encodeStep at h
    split at h
    · rename_i hsz
      rw [push_next_iff] at h
      exact .inr ⟨_, rfl, hi, hsz, h.1, h.2⟩
    · cases h
  · exact .inl ⟨by omega, (Host.Outcome.next.inj h).symm⟩

/-- What E_TRAILER can do, when it answers a next state. -/
theorem eTrailer_next_iff (s t : State) :
    eTrailer s = .next t ↔
      s.out + trailer.length ≤ s.dst.size ∧ t = (s.append trailer).complete := by
  unfold eTrailer push
  split <;> rename_i heq <;> split at heq <;> rename_i h
  · cases heq
    simp [h, eq_comm]
  all_goals first | cases heq; simp [h] | cases heq

/-- `fetchChunk` gives a chunk only by decoding the stream's bytes at `pos`. -/
theorem fetchChunk_chunk (s : State) (i : Instr) (h : fetchChunk s = .chunk i) :
    s.pos + 8 < s.total.toNat ∧ ∃ rest, decodeChunk s.chunkAt = .ok (i, rest) := by
  unfold fetchChunk at h
  split at h
  · cases h
  · split at h
    · cases h
    · split at h
      · rename_i hd
        cases h
        exact ⟨by omega, _, hd⟩
      · cases h

end Sys2Proof.Machine
end

