-- ==== Sys2Proof/Laws/PerInstr.lean ====
section
/-! SUPPORT. Statements made per instruction. `ChunkBytes`: the encoding of a well-formed
instruction is as long as its first byte says (`30_encoding.md` rule R103; the byte of a command
names one byte too). -/

namespace Sys2Proof.Laws.ChunkBytes

/-- The encoding is not empty, and its length is the one its tag names. -/
def Statement (i : Instr) : Prop :=
  i.wellFormed = true → ∃ tag rest, encode i = tag :: rest ∧ (encode i).length = chunkLength tag

theorem rgb (r g b : Byte) : Statement (.rgb r g b) := fun _ => ⟨_, _, rfl, rfl⟩

theorem rgba (r g b a : Byte) : Statement (.rgba r g b a) := fun _ => ⟨_, _, rfl, rfl⟩

theorem index (s : Slot) : Statement (.index s) := fun _ => by
  refine ⟨_, _, rfl, ?_⟩
  revert s
  decide

/-- The tag of a DIFF chunk, over its three fields. -/
theorem diff_length : ∀ x y z : Fin 4, chunkLength
    (0x40 ||| (BitVec.ofNat 8 x.val <<< 4) ||| (BitVec.ofNat 8 y.val <<< 2) |||
      BitVec.ofNat 8 z.val) = 1 := by decide

/-- A delta in range is stored as one of the values of its field (rule R105). -/
theorem unbiased_eq (bias d : Int) (n : Nat) (h0 : 0 ≤ d + bias) (hn : d + bias < n) :
    ∃ k : Fin n, unbiased bias d = BitVec.ofNat 8 k.val := by
  refine ⟨⟨(d + bias).toNat, by omega⟩, ?_⟩
  unfold unbiased
  apply BitVec.eq_of_toNat_eq
  simp only [BitVec.toNat_ofInt, BitVec.toNat_ofNat]
  omega

theorem diff (dr dg db : Int) : Statement (.diff dr dg db) := fun h => by
  simp only [Instr.wellFormed, Bool.and_eq_true, decide_eq_true_eq] at h
  obtain ⟨⟨hr, hg⟩, hb⟩ := h
  obtain ⟨x, hx⟩ := unbiased_eq 2 dr 4 (by omega) (by omega)
  obtain ⟨y, hy⟩ := unbiased_eq 2 dg 4 (by omega) (by omega)
  obtain ⟨z, hz⟩ := unbiased_eq 2 db 4 (by omega) (by omega)
  refine ⟨_, _, rfl, ?_⟩
  rw [hx, hy, hz, diff_length]
  rfl

/-- The tag of a LUMA chunk. -/
theorem luma_length : ∀ x : Fin 64, chunkLength (0x80 ||| BitVec.ofNat 8 x.val) = 2 := by decide

theorem luma (dg drg dbg : Int) : Statement (.luma dg drg dbg) := fun h => by
  simp only [Instr.wellFormed, Bool.and_eq_true, decide_eq_true_eq] at h
  obtain ⟨x, hx⟩ := unbiased_eq 32 dg 64 (by omega) (by omega)
  refine ⟨_, _, rfl, ?_⟩
  rw [hx, luma_length]
  rfl

/-- The tag of a RUN chunk. -/
theorem run_length : ∀ x : Fin 62, chunkLength (0xC0 ||| BitVec.ofNat 8 x.val) = 1 := by decide

theorem run (n : Nat) : Statement (.run n) := fun h => by
  simp only [Instr.wellFormed, decide_eq_true_eq] at h
  exact ⟨_, _, rfl, (run_length ⟨n - 1, by omega⟩).symm⟩

theorem encode : Statement .encode := fun _ => ⟨_, _, rfl, rfl⟩

theorem decode : Statement .decode := fun _ => ⟨_, _, rfl, rfl⟩

end Sys2Proof.Laws.ChunkBytes
end

