-- ==== Sys2Proof/Tests/Slice0.lean ====
section
/-! SUPPORT. Tests. The expected values are written out from the spec's encodings and from the
tables of `95_test_vectors.md`, named at each test; `witness_` theorems show states and operands
that meet the hypotheses of a statement. -/

open Sys2Proof Sys2Proof.Machine

namespace Sys2Proof.Tests

/-- The state a step answers, if it answers one. -/
def nextState : Result → Option State
  | .next t => some t
  | .fault _ => none
  | .refused _ => none

/-- A memory of `size` bytes that holds these from offset 0 on. -/
def memoryOf (size : Nat) (bs : List Byte) : Memory := (Memory.blank size).writeAll 0 bs

/-! ## Well-formedness: one ill-formed term per check -/

theorem test_wellFormed_bounds :
    (Instr.diff (-2) 1 (-2)).wellFormed ∧ (Instr.diff 1 (-2) 1).wellFormed ∧
    (Instr.luma (-32) (-8) 7).wellFormed ∧ (Instr.luma 31 7 (-8)).wellFormed ∧
    (Instr.run 1).wellFormed ∧ (Instr.run 62).wellFormed ∧ (Instr.index 63).wellFormed ∧
    (Instr.rgb 0 0 255).wellFormed ∧ (Instr.rgba 0 0 0 255).wellFormed ∧
    Instr.encode.wellFormed ∧ Instr.decode.wellFormed := by decide

theorem test_illFormed_diff :
    ¬ (Instr.diff 2 0 0).wellFormed ∧ ¬ (Instr.diff (-3) 0 0).wellFormed ∧
    ¬ (Instr.diff 0 2 0).wellFormed ∧ ¬ (Instr.diff 0 (-3) 0).wellFormed ∧
    ¬ (Instr.diff 0 0 2).wellFormed ∧ ¬ (Instr.diff 0 0 (-3)).wellFormed := by decide

theorem test_illFormed_luma :
    ¬ (Instr.luma 32 0 0).wellFormed ∧ ¬ (Instr.luma (-33) 0 0).wellFormed ∧
    ¬ (Instr.luma 0 8 0).wellFormed ∧ ¬ (Instr.luma 0 (-9) 0).wellFormed ∧
    ¬ (Instr.luma 0 0 8).wellFormed ∧ ¬ (Instr.luma 0 0 (-9)).wellFormed := by decide

theorem test_illFormed_run : ¬ (Instr.run 0).wellFormed ∧ ¬ (Instr.run 63).wellFormed := by decide

/-! ## Decoding: words written out bit by bit from `30_encoding.md` rules R94 to R99, and the
dispatch corners of `95_test_vectors.md` 2.7 -/

theorem test_decode_index :
    decodeChunk [0b00111111, 0xAA] = .ok (.index 63, [0xAA]) ∧
    decodeChunk [0b00011110] = .ok (.index 30, []) := by decide

theorem test_decode_diff :
    decodeChunk [0b01000000] = .ok (.diff (-2) (-2) (-2), []) ∧
    decodeChunk [0b01110001] = .ok (.diff 1 (-2) (-1), []) := by decide

theorem test_decode_luma :
    decodeChunk [0b10011101, 0b10001000] = .ok (.luma (-3) 0 0, []) ∧
    decodeChunk [0b10111111, 0b11110000, 7] = .ok (.luma 31 7 (-8), [7]) := by decide

theorem test_decode_run :
    decodeChunk [0b11000000] = .ok (.run 1, []) ∧ decodeChunk [0b11000011] = .ok (.run 4, []) := by
  decide

theorem test_decode_rgb :
    decodeChunk [0b11111110, 200, 0, 1, 9] = .ok (.rgb 200 0 1, [9]) := by decide

theorem test_decode_rgba :
    decodeChunk [0b11111111, 16, 32, 48, 64] = .ok (.rgba 16 32 48 64, []) := by decide

theorem test_decode_cutShort :
    decodeChunk [] = .error .noTag ∧ decodeChunk [0xFE, 1, 2] = .error (.missingOperand "RGB") ∧
    decodeChunk [0xFF, 1, 2, 3] = .error (.missingOperand "RGBA") ∧
    decodeChunk [0x80] = .error (.missingOperand "LUMA") := by decide

/-- `10_state.md` rule R23. -/
theorem test_decodeCommand :
    decodeCommand 1 = .ok .encode ∧ decodeCommand 2 = .ok .decode ∧
    decodeCommand 0 = .error (.reservedCommand 0) ∧
    decodeCommand 3 = .error (.reservedCommand 3) := by decide

/-- The opcode table numbers the second byte's bits from 8 on. -/
theorem test_decodeTableWord :
    decodeTableWord 8 0b00110101 = some (.index 53) ∧
    decodeTableWord 16 0b0111010010101011 = some (.luma 11 (-1) (-4)) ∧
    decodeTableWord 32 0x1E140AFE = some (.rgb 10 20 30) ∧
    decodeTableWord 40 0x80C83264FF = some (.rgba 100 50 200 128) ∧
    decodeTableWord 8 1 = some .encode ∧ decodeTableWord 8 2 = some .decode := by decide

/-- `95_test_vectors.md` 2.2, the packed column. -/
theorem test_encode_deltas :
    encode (.diff 1 (-1) 0) = [0x76] ∧ encode (.diff 0 0 0) = [0x6A] ∧
    encode (.luma 0 2 0) = [0xA0, 0xA8] ∧ encode (.luma 0 0 (-3)) = [0xA0, 0x85] ∧
    encode (.luma 10 1 (-3)) = [0xAA, 0x95] := by decide

/-! ## Pure functions: the tables of `95_test_vectors.md` 2.1 to 2.4 -/

theorem test_hash :
    slot block ⟨10, 20, 30, 255⟩ = 9 ∧ slot block ⟨100, 50, 200, 128⟩ = 30 ∧
    slot block ⟨7, 7, 7, 255⟩ = 30 ∧ slot block ⟨5, 5, 5, 255⟩ = 0 ∧
    slot block ⟨0, 0, 255, 255⟩ = 46 := by decide

theorem test_channelDelta :
    channelDelta 0 255 = 1 ∧ channelDelta 255 0 = -1 ∧ channelDelta 128 0 = -128 ∧
    channelDelta 0 128 = -128 ∧ channelDelta 255 2 = -3 := by decide

theorem test_fits :
    fitsDiff (-2) (-2) (-2) = true ∧ fitsDiff 2 0 0 = false ∧ fitsLuma (-40) (-32) (-40) = true ∧
    fitsLuma 38 31 38 = true ∧ fitsLuma 0 32 32 = false ∧ fitsLuma (-9) 0 0 = false := by decide

theorem test_validDesc :
    validDesc block 1 399999999 3 = true ∧ validDesc block 1 400000000 3 = false ∧
    validDesc block 20000 19999 4 = true ∧ validDesc block 20000 20000 4 = false ∧
    validDesc block 200000001 1 3 = false ∧ validDesc block 0 1 3 = false ∧
    validDesc block 8 4 5 = false := by decide

theorem test_header :
    headerBytes 256 65536 4 1 = [0x71, 0x6F, 0x69, 0x66, 0, 0, 1, 0, 0, 1, 0, 0, 4, 1] ∧
    parseHeader block [0x71, 0x6F, 0x69, 0x66, 0, 0, 0, 3, 0, 0, 0, 2, 3, 7] =
      some ⟨3, 2, 3, 7⟩ ∧
    parseHeader block [0x71, 0x6F, 0x69, 0x67, 0, 0, 0, 3, 0, 0, 0, 2, 3, 7] = none := by decide

/-- STATUS after each failure and after a success (`95_test_vectors.md` 2.8). -/
theorem test_status :
    Status.failed .invalidArgument = 0x14 ∧ Status.failed .formatError = 0x24 ∧
    Status.failed .allocationFailure = 0x34 ∧ Status.completed = 0x02 ∧
    Status.running = 0x01 := by decide

/-! ## The encoder: rows of `95_test_vectors.md` 2.5 and 2.6 -/

theorem test_select_rgbaBeforeDiff :
    (encodePixel block 4 ⟨11, 19, 30, 128⟩ ⟨10, 20, 30, 255⟩ 0 block.cacheSeed).chunks =
      [.rgba 11 19 30 128] := by decide

theorem test_select_deltas :
    (encodePixel block 3 ⟨0, 254, 127, 255⟩ ⟨255, 0, 128, 255⟩ 0 block.cacheSeed).chunks =
      [.diff 1 (-2) (-1)] ∧
    (encodePixel block 3 ⟨48, 41, 48, 255⟩ ⟨10, 10, 10, 255⟩ 0 block.cacheSeed).chunks =
      [.luma 31 7 7] := by decide

theorem test_select_rgbAfterRun :
    chunkBytes (encodePixel block 3 ⟨128, 128, 128, 255⟩ seedPixel 1 block.cacheSeed).chunks =
      [0x35, 0xFE, 0x80, 0x80, 0x80] := by decide

theorem test_select_seedHit :
    (encodePixel block 4 ⟨0, 0, 0, 0⟩ seedPixel 0 block.cacheSeed).chunks = [.index 0] := by decide

theorem test_flush :
    chunkBytes (flushChunks block 2 seedPixel block.cacheSeed) = [0xC1] ∧
    chunkBytes (flushChunks block 61 seedPixel block.cacheSeed) = [0xFC] ∧
    chunkBytes (flushChunks { block with tieBreak := false } 1 seedPixel block.cacheSeed) =
      [0xC0] ∧
    (encodePixel block 3 seedPixel seedPixel 61 block.cacheSeed).chunks = [.run 62] := by decide

/-! ## Chunks: rows of `95_test_vectors.md` 2.7 -/

/-- A running decoder of one three-channel pixel whose last pixel is `p`. -/
def decoderAt (p : Pixel) : State := { State.reset.withStream [] with px := p }

/-- What the chunk table lists: pixel, pending run, and the slot's pixel after. -/
def chunkResult (r : Result) (k : Slot) : Option (Pixel × BitVec 6 × Pixel) :=
  (nextState r).map fun t => (t.px, t.remainingRun, t.cache[k])

theorem test_exec_index :
    chunkResult (exec (.index 53) (decoderAt seedPixel)) 0 = some (⟨0, 0, 0, 255⟩, 0, zeroPixel) ∧
    chunkResult (exec (.index 63) (decoderAt seedPixel)) 0 = some (zeroPixel, 0, zeroPixel) := by
  decide

theorem test_exec_diff :
    chunkResult (exec (.diff 1 1 1) (decoderAt ⟨255, 255, 255, 7⟩)) 13 =
      some (⟨0, 0, 0, 7⟩, 0, ⟨0, 0, 0, 7⟩) ∧
    chunkResult (exec (.diff (-2) (-2) (-2)) (decoderAt ⟨0, 1, 2, 9⟩)) 24 =
      some (⟨254, 255, 0, 9⟩, 0, ⟨254, 255, 0, 9⟩) := by decide

theorem test_exec_luma :
    chunkResult (exec (.luma (-32) (-8) (-8)) (decoderAt ⟨0, 10, 0, 255⟩)) 55 =
      some (⟨216, 234, 216, 255⟩, 0, ⟨216, 234, 216, 255⟩) ∧
    chunkResult (exec (.luma 11 (-1) (-4)) (decoderAt ⟨11, 19, 30, 255⟩)) 13 =
      some (⟨21, 30, 37, 255⟩, 0, ⟨21, 30, 37, 255⟩) := by decide

theorem test_exec_rgb :
    chunkResult (exec (.rgb 9 8 7) (decoderAt ⟨1, 2, 3, 0⟩)) 52 =
      some (⟨9, 8, 7, 0⟩, 0, ⟨9, 8, 7, 0⟩) := by decide

theorem test_exec_rgba :
    chunkResult (exec (.rgba 100 50 200 128) (decoderAt ⟨1, 1, 1, 1⟩)) 30 =
      some (⟨100, 50, 200, 128⟩, 0, ⟨100, 50, 200, 128⟩) := by decide

theorem test_exec_run :
    chunkResult (exec (.run 4) (decoderAt ⟨5, 5, 5, 255⟩)) 0 =
      some (⟨5, 5, 5, 255⟩, 3, ⟨5, 5, 5, 255⟩) ∧
    chunkResult (exec (.run 62) (decoderAt ⟨5, 5, 5, 255⟩)) 0 =
      some (⟨5, 5, 5, 255⟩, 61, ⟨5, 5, 5, 255⟩) := by decide

/-- The pixel's bytes go to DST at `out` (`44_decoder.md` rule R246). -/
theorem test_exec_rgb_bytes :
    (nextState (exec (.rgb 9 8 7) (decoderAt ⟨1, 2, 3, 0⟩))).map
      (fun t => (t.dst.cells, t.out, t.i, t.pos)) =
        some ([(0, 9), (1, 8), (2, 7)], 3, 1, 18) := by decide

/-! ## Commands -/

/-- `45_commands.md` rule R270. -/
theorem test_exec_encode :
    (nextState (exec .encode { State.reset with
        inWidth := 64, inHeight := 1, inChannels := 3, srcLen := 192, dstCap := 278 })).map
      (fun t => ([t.W.toNat, t.Hgt.toNat, t.CH.toNat, t.total.toNat, t.cap.toNat], t.status,
        t.phase)) = some ([64, 1, 3, 192, 278], 0x01, .eCheck) := by decide

/-- `45_commands.md` rule R280; and `10_state.md` rule R23: ignored while BUSY = 1. -/
theorem test_exec_decode :
    (nextState (exec .decode { State.reset with srcLen := 41, dstCap := 32 })).map
      (fun t => (t.c, t.total, t.cap, t.status, t.phase)) = some (0, 41, 32, 0x01, .dCheck) ∧
    nextState (exec .decode (decoderAt seedPixel)) = some (decoderAt seedPixel) := by decide

/-- P5 of `95_test_vectors.md`: while BUSY = 1 a register write and a reserved command are
ignored. -/
theorem test_busy_writes_ignored :
    nextState (hostMove (.regWrite 0x10 5) (decoderAt seedPixel)) = some (decoderAt seedPixel) ∧
    nextState (hostMove (.regWrite 0 3) (decoderAt seedPixel)) = some (decoderAt seedPixel) := by
  decide

/-- The placed instruction is the one the next step runs. -/
theorem test_withFetchWord_chunk :
    (nextState (step (State.reset.withFetchWord 40 0x80C83264FF))).map
      (fun t => (t.px, t.pos, t.i)) = some (⟨100, 50, 200, 128⟩, 19, 1) := by decide

theorem test_withFetchWord_command :
    (nextState (step (State.reset.withFetchWord 8 1))).map (fun t => (t.status, t.phase)) =
      some (0x01, .eCheck) := by decide

/-! ## Witnesses: states and operands that meet the hypotheses of the statements -/

/-- A chunk's encoding read back, at the first and the last operands. -/
theorem witness_decodeChunk :
    decodeChunk ([0x00] ++ [7]) = .ok (.index 0, [7]) ∧
    decodeChunk ([0x3F] ++ [7]) = .ok (.index 63, [7]) ∧
    decodeChunk ([0x40] ++ [7]) = .ok (.diff (-2) (-2) (-2), [7]) ∧
    decodeChunk ([0x7F] ++ [7]) = .ok (.diff 1 1 1, [7]) ∧
    decodeChunk ([0x80, 0] ++ [7]) = .ok (.luma (-32) (-8) (-8), [7]) ∧
    decodeChunk ([0xBF, 0xFF] ++ [7]) = .ok (.luma 31 7 7, [7]) ∧
    decodeChunk ([0xC0] ++ [7]) = .ok (.run 1, [7]) ∧
    decodeChunk ([0xFD] ++ [7]) = .ok (.run 62, [7]) := by decide

/-- The bounds of the tag ranges, with four operand bytes. -/
theorem witness_tagDispatch :
    4 ≤ ([1, 2, 3, 4] : List Byte).length ∧
    decodeChunk [0xFE, 1, 2, 3, 4] = .ok (.rgb 1 2 3, [4]) ∧
    decodeChunk [0xFF, 1, 2, 3, 4] = .ok (.rgba 1 2 3 4, []) ∧
    decodeChunk [0xBF, 1, 2, 3, 4] = .ok (.luma 31 (-8) (-7), [2, 3, 4]) ∧
    decodeChunk [0xFD, 1, 2, 3, 4] = .ok (.run 62, [1, 2, 3, 4]) := by decide

/-- Deltas in each tier, and out of both. -/
theorem witness_deltaTiers :
    fitsDiff (channelDelta 0 255) (channelDelta 254 0) (channelDelta 127 128) = true ∧
    fitsLuma (channelDelta 10 50) (channelDelta 18 50) (channelDelta 10 50) = true ∧
    fitsLuma (channelDelta 10 10) (channelDelta 42 10) (channelDelta 42 10) = false := by decide

theorem witness_validDesc :
    validDesc block 1 399999999 4 = true ∧ validDesc block 200000000 1 3 = true := by decide

/-- The slot invariant of the default seed. -/
theorem witness_slotOk : block.cacheSeed = defaultSeed block.hash ∧ SlotOk block block.cacheSeed :=
  ⟨rfl, by unfold SlotOk; decide⟩

/-- `prev` in its slot, each kind of pending run, and a pixel that hits, and one that misses. -/
theorem witness_encoder :
    block.cacheSeed[slot block seedPixel] = seedPixel ∧ block.tieBreak = true ∧
    (61 : BitVec 6).toNat ≤ 61 ∧ (1 : BitVec 6).toNat = 1 ∧
    (⟨0, 0, 0, 0⟩ : Pixel) ≠ seedPixel ∧
    block.cacheSeed[slot block ⟨0, 0, 0, 0⟩] = (⟨0, 0, 0, 0⟩ : Pixel) ∧
    block.cacheSeed[slot block ⟨1, 1, 1, 255⟩] ≠ (⟨1, 1, 1, 255⟩ : Pixel) := by decide

/-- The ENCODE of the one pixel (10,20,30), in a phase, with what is in DST and `out`. -/
def encoderAt (p : Phase) (dst : List Byte) : State := { State.reset with
  status := 1, phase := p, W := 1, Hgt := 1, CH := 3, total := 3, cap := 26
  prev := seedPixel, cache := block.cacheSeed, out := dst.length
  src := memoryOf 3 [10, 20, 30], dst := memoryOf 26 dst }

/-- The header of that image. -/
def header1 : List Byte := [0x71, 0x6F, 0x69, 0x66, 0, 0, 0, 1, 0, 0, 0, 1, 3, 0]

/-- The stream of that image. -/
def stream1 : List Byte := header1 ++ [0xFE, 10, 20, 30, 0, 0, 0, 0, 0, 0, 0, 1]

/-- The encoder between its last pixel and its end: the pixel has been written. -/
def encoderDone (p : Phase) : State := { encoderAt p (header1 ++ [0xFE, 10, 20, 30]) with
  i := 1, prev := ⟨10, 20, 30, 255⟩
  cache := cachePut block.cacheSeed (slot block ⟨10, 20, 30, 255⟩) ⟨10, 20, 30, 255⟩ }

/-- The DECODE of that stream, in a phase. -/
def decoderOf (p : Phase) : State := { State.reset with
  status := 1, phase := p, W := 1, Hgt := 1, CH := 3, cEff := 3, total := 26, cap := 3
  px := seedPixel, cache := block.cacheSeed, pos := 14
  src := memoryOf 26 stream1, dst := memoryOf 3 [] }

theorem memOk_of (s : State) (h : s.src.wf ∧ s.dst.wf) : s.MemOk := ⟨h.1, h.2⟩

theorem witness_inv_check : (encoderAt .eCheck []).Inv block ∧ (decoderOf .dCheck).Inv block :=
  ⟨⟨memOk_of _ (by decide), rfl, trivial⟩, ⟨memOk_of _ (by decide), rfl, trivial⟩⟩

theorem witness_inv_eHeader : (encoderAt .eHeader []).Inv block :=
  ⟨memOk_of _ (by decide), rfl, ⟨by decide, by decide, by decide, by decide, by decide⟩, rfl, rfl,
    rfl, rfl, rfl⟩

theorem witness_inv_ePixels : (encoderAt .ePixels header1).Inv block :=
  ⟨memOk_of _ (by decide), rfl, ⟨by decide, by decide, by decide, by decide, by decide⟩, by decide,
    by decide, by decide, by decide, by decide, fun _ => rfl, witness_slotOk.2, by decide⟩

theorem slotOk_encoderDone : SlotOk block (encoderDone .eFlush).cache := by
  unfold SlotOk
  decide

theorem witness_inv_eFlush : (encoderDone .eFlush).Inv block :=
  ⟨memOk_of _ (by decide), rfl, ⟨⟨by decide, by decide, by decide, by decide, by decide⟩, by decide,
    by decide, by decide, by decide, by decide, fun _ => rfl, slotOk_encoderDone, by decide⟩, rfl⟩

theorem witness_inv_eTrailer : (encoderDone .eTrailer).Inv block :=
  ⟨memOk_of _ (by decide), rfl, ⟨by decide, by decide, by decide, by decide, by decide⟩, by decide,
    by decide⟩

theorem witness_inv_dHeader : (decoderOf .dHeader).Inv block :=
  ⟨memOk_of _ (by decide), rfl, .inl rfl, by decide, by decide⟩

theorem witness_inv_dPixels : (decoderOf .dPixels).Inv block :=
  ⟨memOk_of _ (by decide), rfl, by decide, rfl, .inl rfl, by decide, by decide, by decide, by decide,
    rfl, by decide, by decide, by decide, witness_slotOk.2⟩

/-- Each phase of the two commands goes on from the state above, to the phase after it. -/
theorem witness_phases :
    (nextState (step (encoderAt .eCheck []))).map (·.phase) = some .eHeader ∧
    (nextState (step (encoderAt .eHeader []))).map (·.phase) = some .ePixels ∧
    (nextState (step (encoderAt .ePixels header1))).map (·.phase) = some .ePixels ∧
    (nextState (step (encoderDone .ePixels))).map (·.phase) = some .eFlush ∧
    (nextState (step (encoderDone .eFlush))).map (·.phase) = some .eTrailer ∧
    (nextState (step (encoderDone .eTrailer))).map (·.phase) = some .idle ∧
    (nextState (step (decoderOf .dCheck))).map (·.phase) = some .dHeader ∧
    (nextState (step (decoderOf .dHeader))).map (·.phase) = some .dPixels ∧
    (nextState (step (decoderOf .dPixels))).map (·.i) = some 1 := by decide

/-- The hypotheses of the pixel, header, flush and trailer steps of ENCODE. -/
theorem witness_encodeSteps :
    (encoderAt .ePixels header1).host = [] ∧
    (encoderAt .ePixels header1).i < (encoderAt .ePixels header1).pixels ∧
    (encoderAt .ePixels header1).CH = 3 ∧
    ((encoderAt .ePixels header1).i + 1) * 3 ≤ (encoderAt .ePixels header1).src.size ∧
    14 + (chunkBytes (encodePixel block 3 ⟨10, 20, 30, 255⟩ seedPixel 0 block.cacheSeed).chunks).length
      ≤ (encoderAt .ePixels header1).dst.size ∧
    (encoderAt .eHeader []).out = 0 ∧ 14 ≤ (encoderAt .eHeader []).dst.size ∧
    (encoderDone .ePixels).pixels ≤ (encoderDone .ePixels).i ∧
    (encoderDone .eTrailer).out + 8 ≤ (encoderDone .eTrailer).dst.size := by decide

/-- The checks of ENCODE fail in each way (rows E1 to E4 of `95_test_vectors.md` 2.8). -/
theorem witness_encodeChecks :
    (nextState (step { encoderAt .eCheck [] with W := 0 })).map (·.status) = some 0x14 ∧
    (nextState (step { encoderAt .eCheck [] with total := 4 })).map (·.status) = some 0x14 ∧
    (nextState (step { encoderAt .eCheck [] with total := 2 })).map (·.status) = some 0x14 ∧
    (nextState (step { encoderAt .eCheck [] with cap := 25 })).map (·.status) = some 0x34 := by
  decide

/-- DECODE fails in each way before its pixels (rows E7 to E14). -/
theorem witness_decodeChecks :
    (nextState (step { decoderOf .dCheck with c := 7 })).map (·.status) = some 0x14 ∧
    (nextState (step { decoderOf .dCheck with total := 27 })).map (·.status) = some 0x14 ∧
    (nextState (step { decoderOf .dHeader with total := 21 })).map (·.status) = some 0x24 ∧
    (nextState (step { decoderOf .dHeader with src := memoryOf 26 (stream1.set 0 0x51) })).map
      (·.status) = some 0x24 ∧
    (nextState (step { decoderOf .dHeader with src := memoryOf 26 (stream1.set 7 0) })).map
      (·.status) = some 0x24 ∧
    (nextState (step { decoderOf .dHeader with cap := 2 })).map (·.status) = some 0x34 := by decide

/-- The hypotheses of the decoder's steps: a chunk, a pending run, the end, and a cut stream. -/
theorem witness_decodeSteps :
    HasRoom (decoderOf .dPixels) ∧ ¬ HasRoom { decoderOf .dPixels with out := 1 } ∧
    (decoderOf .dPixels).i < (decoderOf .dPixels).pixels ∧
    (decoderOf .dPixels).pos + 8 < (decoderOf .dPixels).total.toNat ∧
    (decoderOf .dPixels).total.toNat ≤ (decoderOf .dPixels).src.size ∧
    decodeChunk ((decoderOf .dPixels).srcBytes 14 5) = .ok (.rgb 10 20 30, [0]) ∧
    0 < ({ decoderOf .dPixels with remainingRun := 61 } : State).remainingRun.toNat ∧
    ({ decoderOf .dPixels with pos := 18 } : State).total.toNat ≤ 18 + 8 ∧
    (decoderOf .dPixels).W.toNat * (decoderOf .dPixels).Hgt.toNat ≤
      ({ decoderOf .dPixels with i := 1 } : State).i := by
  unfold HasRoom
  decide

/-- The steps at those states: the chunk, a pixel of a run, the completion and the failure. -/
theorem witness_decodeStep_results :
    (nextState (step (decoderOf .dPixels))).map (·.px) = some ⟨10, 20, 30, 255⟩ ∧
    (nextState (step { decoderOf .dPixels with remainingRun := 61 })).map (·.remainingRun.toNat) =
      some 60 ∧
    (nextState (step { decoderOf .dPixels with i := 1, out := 3 })).map (·.status) = some 0x02 ∧
    (nextState (step { decoderOf .dPixels with pos := 18 })).map (·.status) = some 0x24 := by decide

/-- A pending command write is the command of its low byte, BUSY = 0 or not. -/
theorem witness_command :
    decodeCommand ((0x0101 : Word64).setWidth 8) = .ok .encode ∧
    State.reset.status.toNat % 2 = 0 ∧ (decoderOf .dPixels).status.toNat % 2 = 1 ∧
    (nextState (step { State.reset with host := [.regWrite 0 0x0102] })).map (·.phase) =
      some .dCheck := by decide

/-- The engine step that sets ERROR, from a state whose STATUS is right. -/
theorem witness_failure :
    (decoderOf .dCheck).StatusOk ∧ (decoderOf .dCheck).phase ≠ .idle ∧
    (nextState (engineStep { decoderOf .dCheck with c := 7 })).map (Status.error ·.status) =
      some true ∧
    (nextState (engineStep { decoderOf .dPixels with i := 1, out := 3 })).map
      (fun t => (Status.done t.status, t.outWidth, t.outChannels)) = some (true, 1, 3) :=
  ⟨rfl, by decide, by decide, by decide⟩

/-- The host's memory moves: below the size, BUSY = 0 and BUSY = 1. -/
theorem witness_hostMemory :
    0 < State.reset.src.size ∧ 0 < State.reset.dst.size ∧ State.reset.status.toNat % 2 = 0 ∧
    (nextState (hostMove (.srcWrite 5 9) State.reset)).map (·.srcByte 5) = some 9 ∧
    (nextState (hostMove (.dstWrite 5 9) State.reset)).map (·.dstByte 5) = some 9 ∧
    nextState (hostMove (.srcWrite 0 9) (decoderOf .dPixels)) = none := by decide

/-- Register writes, one of each width; P5 reads IN_WIDTH back. -/
theorem witness_registerWrites :
    (nextState (hostMove (.regWrite 0x10 0x100000040) State.reset)).map (·.regRead 0x10) =
      some 0x40 ∧
    (nextState (hostMove (.regWrite 0x20 0x103) State.reset)).map (·.regRead 0x20) = some 3 ∧
    (nextState (hostMove (.regWrite 0x40 5) State.reset)).map (·.regRead 0x40) = some 0 := by decide

/-- A decoder and an encoder that agree: the cache holds the pixel in its slot. -/
theorem witness_decoderFollows :
    HasRoom (decoderOf .dPixels) ∧
    (decoderOf .dPixels).cache[slot block (decoderOf .dPixels).px] = (decoderOf .dPixels).px ∧
    (⟨10, 20, 30, 255⟩ : Pixel).a = (decoderOf .dPixels).px.a ∧
    (⟨10, 20, 30, 255⟩ : Pixel) ≠ (decoderOf .dPixels).px := by
  unfold HasRoom
  decide

/-- A round trip: the ENCODE of one pixel runs to its end, and its stream is `decoderOf`'s SRC. -/
theorem witness_roundTrip :
    ∃ (P : Config.Params) (s t u : State), P.cacheSeed = defaultSeed P.hash ∧ s.Inv P ∧ s.host = [] ∧
      s.phase = .ePixels ∧ s.i = 0 ∧ s.out = 14 ∧ s.run = 0 ∧ s.prev = seedPixel ∧
      s.cache = P.cacheSeed ∧ (coreOf P).run (s.pixels + 3) s = .next t ∧
      u.Inv P ∧ u.host = [] ∧ u.phase = .dPixels ∧ u.W = s.W ∧ u.Hgt = s.Hgt ∧ u.CH = s.CH ∧
      u.c = 0 ∧ u.px = seedPixel ∧ u.remainingRun = 0 ∧ u.cache = P.cacheSeed ∧ u.pos = 14 ∧
      u.i = 0 ∧ u.out = 0 ∧ u.total = t.resultLen ∧
      ∀ a, a < t.resultLen.toNat → u.srcByte a = t.dstByte a :=
  ⟨block, encoderAt .ePixels header1, _, decoderOf .dPixels, rfl, witness_inv_ePixels, rfl, rfl, rfl,
    rfl, rfl, rfl, rfl, rfl, witness_inv_dPixels, rfl, rfl, rfl, rfl, rfl, rfl, rfl, rfl, rfl, rfl,
    rfl, rfl, rfl, by decide⟩

/-! ## Other parameters (`40_cache_hash.md` rule R141) -/

/-- A hash that ignores alpha, with the all-zero seed. -/
def alphaBlind : Config.Params :=
  { block with
    hash := fun p => p.r.toNat + p.g.toNat + p.b.toNat, cacheSeed := Vector.replicate 64 zeroPixel }

/-- The encoder flushes RUN(2) and hits the zero pixel's slot. -/
theorem test_zeroSeed_encode :
    (encodePixel alphaBlind 4 zeroPixel seedPixel 2 alphaBlind.cacheSeed).chunks =
      [.run 2, .index 0] := by decide

/-- The decoder's RUN refresh has put the seed pixel into that slot. -/
theorem test_zeroSeed_decode :
    chunkResult (execWith alphaBlind (.run 2)
      { decoderAt seedPixel with cache := alphaBlind.cacheSeed }) 0 =
        some (seedPixel, 1, seedPixel) := by decide

/-- A DECODE's seed and a pixel step follow the parameters. -/
theorem test_otherHash_step :
    (nextState (stepOf { alphaBlind with cacheSeed := defaultSeed alphaBlind.hash }
      (decoderOf .dHeader))).map (fun t => t.cache[(0 : Slot)]) = some seedPixel ∧
    (nextState (stepOf alphaBlind (decoderOf .dPixels))).map (fun t => t.cache[(60 : Slot)]) =
      some ⟨10, 20, 30, 255⟩ := by decide

/-- OUT_* after a reset, and after the completion of a DECODE. -/
theorem witness_outputs :
    (nextState (step { State.reset with outWidth := 5, host := [.reset] })).map (·.outWidth) =
      some 0 ∧
    (nextState (step { decoderOf .dPixels with i := 1, out := 3 })).map (·.outWidth) = some 1 := by
  decide

end Sys2Proof.Tests
end

/-! # Proofs: what a step can do

One inversion for the whole machine: `EngineStep` lists what the engine can do in one step,
`HostStep` what the host can do in one move, and `stepOf_cases` says that a step of a block with any
parameters is one of the two. Every invariant is proved from these (`stepOf_keeps`). -/

section
namespace Sys2Proof.Machine

/-- What the encoder's step on the fetched pixel gives (`43_encoder.md` rules R191, R192). -/
def State.encoded (s : State) (P : Config.Params) : Encoded :=
  encodePixel P s.CH s.fetchPixel s.prev s.run s.cache

/-- The encoder has taken one pixel: its chunks go to DST, and `i` counts it (rule R192). -/
def State.pixelEncoded (s : State) (P : Config.Params) : State :=
  ({ s with
      i := s.i + 1, prev := (s.encoded P).prev, run := (s.encoded P).run
      cache := (s.encoded P).cache } : State).append (chunkBytes (s.encoded P).chunks)

/-- The running pixel is emitted: its bytes go to DST, and `i` counts it (`44_decoder.md` rules R234,
R246). -/
def State.emitted (s : State) : State :=
  ({ s with i := s.i + 1 } : State).append (pixelBytes s.cEff s.px)

/-- What the engine can do in one step, for the parameters `P`. -/
inductive EngineStep (P : Config.Params) (s : State) : State → Prop
  /-- Nothing runs. -/
  | idle (hp : s.phase = .idle) : EngineStep P s s
  /-- The command fails. -/
  | fail (hp : s.phase ≠ .idle) (e : ErrKind) : EngineStep P s (s.fail e)
  /-- E_CHECK passes. -/
  | eCheck (hp : s.phase = .eCheck) (ok : s.EncodeOk P) :
    EngineStep P s { s.seedEncoder P with phase := .eHeader }
  /-- E_HEADER writes the header. -/
  | eHeader (hp : s.phase = .eHeader)
    (room : s.out + (headerBytes s.W s.Hgt s.CH s.CS).length ≤ s.dst.size) :
    EngineStep P s
      (({ s with phase := .ePixels } : State).append (headerBytes s.W s.Hgt s.CH s.CS))
  /-- E_PIXELS encodes a pixel. -/
  | ePixel (hp : s.phase = .ePixels) (hi : s.i < s.pixels)
    (hsrc : (s.i + 1) * pixelStride s.CH ≤ s.src.size)
    (room : s.out + (chunkBytes (s.encoded P).chunks).length ≤ s.dst.size) :
    EngineStep P s (s.pixelEncoded P)
  /-- E_PIXELS has no pixel left. -/
  | ePixelsDone (hp : s.phase = .ePixels) (hi : s.pixels ≤ s.i) :
    EngineStep P s { s with phase := .eFlush }
  /-- E_FLUSH writes the pending run. -/
  | eFlush (hp : s.phase = .eFlush)
    (room : s.out + (chunkBytes (flushChunks P s.run s.prev s.cache)).length ≤ s.dst.size) :
    EngineStep P s
      (({ s with run := 0, phase := .eTrailer } : State).append
        (chunkBytes (flushChunks P s.run s.prev s.cache)))
  /-- E_TRAILER writes the trailer and completes ENCODE. -/
  | eTrailer (hp : s.phase = .eTrailer) (room : s.out + trailer.length ≤ s.dst.size) :
    EngineStep P s (s.append trailer).complete
  /-- D_CHECK passes. -/
  | dCheck (hp : s.phase = .dCheck) (hc : s.c = 0 ∨ s.c = 3 ∨ s.c = 4)
    (hsrc : s.total.toNat ≤ s.src.size) (hdst : s.cap.toNat ≤ s.dst.size) :
    EngineStep P s { s with phase := .dHeader }
  /-- D_HEADER accepts the descriptor. -/
  | dHeader (hp : s.phase = .dHeader) (d : Descriptor)
    (hd : parseHeader P (s.srcBytes 0 headerSize) = some d) (htotal : 22 ≤ s.total.toNat)
    (hcap : d.W.toNat * d.Hgt.toNat * (effectiveChannels s.c d.CH).toNat ≤ s.cap.toNat) :
    EngineStep P s { (s.latchDescriptor d).seedDecoder P with phase := .dPixels }
  /-- D_PIXELS emits a pixel of the pending run. -/
  | dRepeat (hp : s.phase = .dPixels) (hi : s.i < s.pixels) (hr : s.remainingRun ≠ 0)
    (room : s.out + pixelStride s.cEff ≤ s.dst.size) :
    EngineStep P s ({ s with remainingRun := s.remainingRun - 1 } : State).emitted
  /-- D_PIXELS runs the next chunk. -/
  | dChunk (hp : s.phase = .dPixels) (hi : s.i < s.pixels) (hr : s.remainingRun = 0) (i : Instr)
    (hf : fetchChunk s = .chunk i) (room : s.out + pixelStride s.cEff ≤ s.dst.size) :
    EngineStep P s (afterChunk P i s).emitted
  /-- D_PIXELS has no pixel left: DECODE completes. -/
  | dDone (hp : s.phase = .dPixels) (hi : s.pixels ≤ s.i) : EngineStep P s s.completeDecode

/-- What the host can do to the block in one move, its pending moves already taken off. -/
inductive HostStep (s : State) : HostMove → State → Prop
  /-- A register write with no effect. -/
  | ignored (off : Nat) (v : Word64) : HostStep s (.regWrite off v) s
  /-- ENCODE starts. -/
  | encode (v : Word64) (hb : Status.busy s.status = false) :
    HostStep s (.regWrite cmdOffset v)
      { s.start .eCheck with
        W := s.inWidth, Hgt := s.inHeight, CH := s.inChannels, CS := s.inColorspace }
  /-- DECODE starts. -/
  | decode (v : Word64) (hb : Status.busy s.status = false) :
    HostStep s (.regWrite cmdOffset v) { s.start .dCheck with c := s.inChannels }
  /-- A write of another register. -/
  | regWrite (off : Nat) (v : Word64) (ho : off ≠ cmdOffset) :
    HostStep s (.regWrite off v) (s.regWrite off v)
  /-- A register read. -/
  | regRead (off : Nat) : HostStep s (.regRead off) { s with hostRead := s.regRead off }
  /-- A write of a SRC byte. -/
  | srcWrite (a : Nat) (v : Byte) (hb : Status.busy s.status = false) (ha : a < s.src.size) :
    HostStep s (.srcWrite a v) { s with src := s.src.write a v }
  /-- A read of a SRC byte. -/
  | srcRead (a : Nat) (ha : a < s.src.size) : HostStep s (.srcRead a) (readSrc a s)
  /-- A write of a DST byte. -/
  | dstWrite (a : Nat) (v : Byte) (hb : Status.busy s.status = false) (ha : a < s.dst.size) :
    HostStep s (.dstWrite a v) { s with dst := s.dst.write a v }
  /-- A read of a DST byte. -/
  | dstRead (a : Nat) (ha : a < s.dst.size) : HostStep s (.dstRead a) (readDst a s)
  /-- A reset. -/
  | reset : HostStep s .reset s.hardReset

/-! ## Chunks fetched from the stream -/

/-- The low field of a RUN tag is at most 61: the two values above are the literal tags. -/
theorem runField_le (tag : Byte) (h : bitField 6 2 tag = 3) (hFE : tag ≠ 0xFE) (hFF : tag ≠ 0xFF) :
    bitField 0 6 tag ≤ 61 := by
  have hb : tag.toNat < 256 := tag.isLt
  have hFE : tag.toNat ≠ 254 := fun e => hFE (BitVec.eq_of_toNat_eq e)
  have hFF : tag.toNat ≠ 255 := fun e => hFF (BitVec.eq_of_toNat_eq e)
  simp only [bitField, BitVec.extractLsb'_toNat, Nat.shiftRight_eq_div_pow] at h ⊢
  omega

/-- What is decoded from bytes is a chunk, and well-formed. -/
theorem decodeChunk_isChunk_wellFormed {bs rest : List Byte} {i : Instr}
    (h : decodeChunk bs = .ok (i, rest)) : i.isChunk = true ∧ i.wellFormed = true := by
  cases bs with
  | nil => cases h
  | cons tag o =>
    have field (lo n : Nat) (v : Byte) : bitField lo n v < 2 ^ n := (v.extractLsb' lo n).isLt
    obtain ⟨-, r, g, b, -, rfl⟩ | ⟨-, r, g, b, a, -, rfl⟩ | ⟨-, -, rfl⟩ | ⟨-, -, rfl⟩ |
      ⟨-, b2, -, rfl⟩ | ⟨h3, hFE, hFF, -, rfl⟩ := decodeChunk_cases tag o rest i h
    · exact ⟨rfl, rfl⟩
    · exact ⟨rfl, rfl⟩
    · exact ⟨rfl, rfl⟩
    · have hr := field 4 2 tag
      have hg := field 2 2 tag
      have hb := field 0 2 tag
      refine ⟨rfl, ?_⟩
      simp only [Instr.wellFormed, Bool.and_eq_true, decide_eq_true_eq]
      unfold biased
      omega
    · have hg := field 0 6 tag
      have hr := field 4 4 b2
      have hb := field 0 4 b2
      refine ⟨rfl, ?_⟩
      simp only [Instr.wellFormed, Bool.and_eq_true, decide_eq_true_eq]
      unfold biased
      omega
    · have hlow : bitField 0 6 tag ≤ 61 := runField_le tag h3 hFE hFF
      exact ⟨rfl, decide_eq_true (by omega)⟩

/-- The chunk the engine fetches is a chunk, and well-formed. -/
theorem fetchChunk_isChunk_wellFormed {s : State} {i : Instr} (h : fetchChunk s = .chunk i) :
    i.isChunk = true ∧ i.wellFormed = true := by
  obtain ⟨-, rest, hd⟩ := fetchChunk_chunk s i h
  exact decodeChunk_isChunk_wellFormed hd

/-! ## The inversions -/

@[simp] theorem afterChunk_out (P : Config.Params) (i : Instr) (s : State) :
    (afterChunk P i s).out = s.out := by cases i <;> rfl

@[simp] theorem afterChunk_cEff (P : Config.Params) (i : Instr) (s : State) :
    (afterChunk P i s).cEff = s.cEff := by cases i <;> rfl

@[simp] theorem afterChunk_dst (P : Config.Params) (i : Instr) (s : State) :
    (afterChunk P i s).dst = s.dst := by cases i <;> rfl

/-- What D_PIXELS does is an engine step. -/
theorem engineStep_of_dPixels {P : Config.Params} {s t : State} (hp : s.phase = .dPixels)
    (h : dPixels (execWith P) s = .next t) : EngineStep P s t := by
  obtain ⟨hi, rfl⟩ | ⟨hi, ⟨hr, h⟩ | ⟨-, -, rfl⟩ | ⟨i, hr, hf, h⟩⟩ := dPixels_cases _ s t h
  · exact .dDone hp hi
  · obtain ⟨room, rfl⟩ := (emitPixel_next_iff _ _).1 h
    exact .dRepeat hp hi hr room
  · exact .fail (by simp [hp]) _
  · rw [execWith_chunk P i s (fetchChunk_isChunk_wellFormed hf).1, emitPixel_next_iff] at h
    obtain ⟨room, rfl⟩ := h
    exact .dChunk hp hi hr i hf (by simpa using room)

/-- An answer of the engine is one of the listed steps. -/
theorem engineStepWith_cases {P : Config.Params} {s t : State}
    (h : engineStepWith P (execWith P) s = .next t) : EngineStep P s t := by
  unfold engineStepWith at h
  cases hp : s.phase <;> rw [hp] at h
  case idle => cases h; exact .idle hp
  case eCheck =>
    cases h
    obtain ⟨e, h⟩ | ⟨h, ok⟩ := eCheck_cases P s <;> rw [h]
    · exact .fail (by simp [hp]) e
    · exact .eCheck hp ok
  case eHeader =>
    obtain ⟨room, rfl⟩ := (push_next_iff _ _ _).1 h
    exact .eHeader hp room
  case ePixels =>
    obtain ⟨hi, rfl⟩ | ⟨e, rfl, hi, hsrc, room, rfl⟩ := ePixels_cases P s t h
    · exact .ePixelsDone hp hi
    · exact .ePixel hp hi hsrc room
  case eFlush =>
    obtain ⟨room, rfl⟩ := (push_next_iff _ _ _).1 h
    exact .eFlush hp room
  case eTrailer =>
    obtain ⟨room, rfl⟩ := (eTrailer_next_iff s t).1 h
    exact .eTrailer hp room
  case dCheck =>
    cases h
    obtain ⟨e, h⟩ | ⟨h, hc, hsrc, hdst⟩ := dCheck_cases s <;> rw [h]
    · exact .fail (by simp [hp]) e
    · exact .dCheck hp hc hsrc hdst
  case dHeader =>
    obtain ⟨e, rfl⟩ | ⟨d, hd, htotal, hcap, rfl⟩ := dHeader_cases P s t h
    · exact .fail (by simp [hp]) e
    · exact .dHeader hp d hd htotal hcap
  case dPixels => exact engineStep_of_dPixels hp h

/-- An answer of this hardware's engine is one of the listed steps. -/
theorem engineStep_cases {s t : State} (h : engineStep s = .next t) : EngineStep block s t := by
  rw [engineStep, ← execWith_block] at h
  exact engineStepWith_cases h

/-- A command is read from its CMD byte only. -/
theorem decodeCommand_ok {op : Byte} {i : Instr} (h : decodeCommand op = .ok i) :
    (op = 1 ∧ i = .encode) ∨ (op = 2 ∧ i = .decode) := by
  unfold decodeCommand at h
  split at h
  · exact .inl ⟨‹_›, (Except.ok.inj h).symm⟩
  · split at h
    · exact .inr ⟨‹_›, (Except.ok.inj h).symm⟩
    · cases h

/-- A write to CMD starts a command or has no effect. -/
theorem hostStep_of_writeCmd {P : Config.Params} {v : Word64} {s t : State}
    (h : writeCmd (execWith P) v s = .next t) : HostStep s (.regWrite cmdOffset v) t := by
  unfold writeCmd at h
  split at h
  · rename_i i hi
    obtain ⟨-, rfl⟩ | ⟨-, rfl⟩ := decodeCommand_ok hi
    · change execEncode s = .next t at h
      unfold execEncode at h
      split at h <;> rename_i hb <;> cases h
      · exact .ignored _ v
      · exact .encode v (Bool.eq_false_iff.2 hb)
    · change execDecode s = .next t at h
      unfold execDecode at h
      split at h <;> rename_i hb <;> cases h
      · exact .ignored _ v
      · exact .decode v (Bool.eq_false_iff.2 hb)
  · cases h
    exact .ignored _ v

/-- An answer to a move of the host is the engine's step it lets happen, or one of the listed
moves. -/
theorem hostMoveWith_cases {P : Config.Params} {m : HostMove} {s t : State}
    (h : hostMoveWith P (execWith P) m s = .next t) : EngineStep P s t ∨ HostStep s m t := by
  unfold hostMoveWith at h
  cases m with
  | regWrite off v =>
    dsimp only at h
    split at h
    · subst off
      exact .inr (hostStep_of_writeCmd h)
    · cases h
      exact .inr (.regWrite off v ‹_›)
  | regRead off => cases h; exact .inr (.regRead off)
  | srcWrite a v =>
    dsimp only at h
    split at h
    · cases h
    · rename_i hb
      split at h
      · cases h
        exact .inr (.srcWrite a v (Bool.eq_false_iff.2 hb) ‹_›)
      · cases h
  | srcRead a =>
    dsimp only at h
    split at h
    · cases h
      exact .inr (.srcRead a ‹_›)
    · cases h
  | dstWrite a v =>
    dsimp only at h
    split at h
    · cases h
    · rename_i hb
      split at h
      · cases h
        exact .inr (.dstWrite a v (Bool.eq_false_iff.2 hb) ‹_›)
      · cases h
  | dstRead a =>
    dsimp only at h
    split at h
    · cases h
      exact .inr (.dstRead a ‹_›)
    · cases h
  | engine => exact .inl (engineStepWith_cases h)
  | reset => cases h; exact .inr .reset

/-- An answer of a step, for any parameters: the engine's, with the moves `ms` still pending, or
that of the host's next move. -/
theorem stepOf_cases {P : Config.Params} {s t : State} (h : stepOf P s = .next t) :
    (∃ ms, EngineStep P (s.withHost ms) t) ∨
      ∃ m ms, s.host = m :: ms ∧ HostStep (s.withHost ms) m t := by
  unfold stepOf at h
  cases hm : s.host with
  | nil =>
    rw [stepWith_engine _ _ _ hm] at h
    exact .inl ⟨s.host, engineStepWith_cases h⟩
  | cons m ms =>
    rw [stepWith_host _ _ _ m ms hm] at h
    obtain h | h := hostMoveWith_cases h
    · exact .inl ⟨ms, h⟩
    · exact .inr ⟨m, ms, rfl, h⟩

/-- An answer of a step of this hardware. -/
theorem step_cases {s t : State} (h : step s = .next t) :
    (∃ ms, EngineStep block (s.withHost ms) t) ∨
      ∃ m ms, s.host = m :: ms ∧ HostStep (s.withHost ms) m t :=
  stepOf_cases (stepOf_block ▸ h)

/-- A property that does not depend on the pending moves and that the engine's steps and the host's
moves keep is kept by every step. -/
theorem stepOf_keeps {P : Config.Params} {I : State → Prop}
    (pending : ∀ s ms, I s → I (s.withHost ms))
    (engine : ∀ s t, I s → EngineStep P s t → I t)
    (host : ∀ s m t, I s → HostStep s m t → I t) {s t : State} (hs : I s)
    (h : stepOf P s = .next t) : I t := by
  obtain ⟨ms, h⟩ | ⟨m, ms, -, h⟩ := stepOf_cases h
  · exact engine _ _ (pending s ms hs) h
  · exact host _ m _ (pending s ms hs) h

end Sys2Proof.Machine
end

/-! # Proofs: the register block (`10_state.md`)

What the host's register accesses do, and which steps write STATUS and the OUT registers. -/

section
namespace Sys2Proof.Machine

/-! ## Frames of the shared operations -/

/-- A register write reaches only the registers the host programs. -/
theorem State.regWrite_frame (s : State) (off : Nat) (v : Word64) :
    ∃ iw ih ic ics sl dc, s.regWrite off v =
      { s with
        inWidth := iw, inHeight := ih, inChannels := ic, inColorspace := ics, srcLen := sl
        dstCap := dc } := by
  unfold State.regWrite
  split
  · exact ⟨_, _, _, _, _, _, rfl⟩
  · split <;> exact ⟨_, _, _, _, _, _, rfl⟩

/-- A read of a DST byte reaches only what the host has read and the draws made. -/
theorem readDst_frame (a : Nat) (s : State) :
    ∃ r n, readDst a s = { s with hostRead := r, freeCtr := n } := by
  unfold readDst
  split <;> exact ⟨_, _, rfl⟩

/-! ## STATUS (rules R24, R36) -/

theorem State.statusOk_idle {s : State} (hp : s.phase = .idle) :
    s.StatusOk ↔ s.status = 0 ∨ s.status = Status.completed ∨ ∃ e, s.status = Status.failed e := by
  simp only [State.StatusOk, hp]

theorem State.statusOk_running {s : State} (hp : s.phase ≠ .idle) :
    s.StatusOk ↔ s.status = Status.running := by
  unfold State.StatusOk
  split
  · contradiction
  · rfl

theorem State.StatusOk.stays {s t : State} (h : s.StatusOk) (hp : t.phase = s.phase)
    (hs : t.status = s.status) : t.StatusOk := by
  unfold State.StatusOk at h ⊢
  rwa [hp, hs]

/-- From one phase of a running command to another. -/
theorem State.StatusOk.advance {s t : State} (h : s.StatusOk) (hp : s.phase ≠ .idle)
    (ht : t.phase ≠ .idle) (hs : t.status = s.status) : t.StatusOk :=
  (State.statusOk_running ht).2 (hs.trans ((State.statusOk_running hp).1 h))

theorem State.statusOk_fail (s : State) (e : ErrKind) : (s.fail e).StatusOk :=
  (State.statusOk_idle rfl).2 (.inr (.inr ⟨e, rfl⟩))

theorem State.statusOk_complete (s : State) : s.complete.StatusOk :=
  (State.statusOk_idle rfl).2 (.inr (.inl rfl))

/-- The engine keeps BUSY and the phase in step. -/
theorem EngineStep.statusOk {P : Config.Params} {s t : State} (hs : s.StatusOk)
    (h : EngineStep P s t) : t.StatusOk := by
  cases h with
  | idle => exact hs
  | fail _ e => exact s.statusOk_fail e
  | eCheck hp | eHeader hp | ePixelsDone hp | eFlush hp | dCheck hp | dHeader hp =>
    exact hs.advance (by simp [hp]) (by simp) rfl
  | ePixel | dRepeat => exact hs.stays rfl rfl
  | eTrailer => exact State.statusOk_complete _
  | dChunk hp hi hr i =>
    obtain ⟨p, q, rr, ca, hc⟩ := afterChunk_frame P i s
    rw [hc]
    exact hs.stays rfl rfl
  | dDone => exact (State.statusOk_idle rfl).2 (.inr (.inl rfl))

/-- The host's moves keep BUSY and the phase in step. -/
theorem HostStep.statusOk {s t : State} {m : HostMove} (hs : s.StatusOk) (h : HostStep s m t) :
    t.StatusOk := by
  cases h with
  | ignored => exact hs
  | encode | decode => exact (State.statusOk_running (by simp)).2 rfl
  | regWrite off v =>
    obtain ⟨_, _, _, _, _, _, hw⟩ := s.regWrite_frame off v
    rw [hw]
    exact hs.stays rfl rfl
  | regRead | srcWrite | srcRead | dstWrite => exact hs.stays rfl rfl
  | dstRead a =>
    obtain ⟨_, _, hr⟩ := readDst_frame a s
    rw [hr]
    exact hs.stays rfl rfl
  | reset => exact (State.statusOk_idle rfl).2 (.inl rfl)

/-- Settles O53: STATUS and the phase stay in step. -/
theorem statusKept : Obligations.StatusKept := by
  intro s t hs h
  exact stepOf_keeps (P := block) (I := State.StatusOk) (fun _ _ h => h.stays rfl rfl)
    (fun _ _ h => EngineStep.statusOk h) (fun _ _ _ h => HostStep.statusOk h) hs (stepOf_block ▸ h)

/-! ## The OUT registers (rule R25) -/

/-- The engine writes the OUT registers only as a DECODE completes. -/
theorem EngineStep.outputs {P : Config.Params} {s t : State} (h : EngineStep P s t) :
    SameOutputs s t ∨ (s.phase = .dPixels ∧ t = s.completeDecode) := by
  cases h with
  | idle | fail | eCheck | eHeader | ePixel | ePixelsDone | eFlush | eTrailer | dCheck | dHeader
  | dRepeat => exact .inl ⟨rfl, rfl, rfl, rfl⟩
  | dChunk hp hi hr i =>
    obtain ⟨p, q, rr, ca, hc⟩ := afterChunk_frame P i s
    rw [hc]
    exact .inl ⟨rfl, rfl, rfl, rfl⟩
  | dDone hp => exact .inr ⟨hp, rfl⟩

/-- Of the host's moves only a reset writes the OUT registers. -/
theorem HostStep.outputs {s t : State} {m : HostMove} (h : HostStep s m t) :
    SameOutputs s t ∨ m = .reset := by
  cases h with
  | ignored | encode | decode | regRead | srcWrite | srcRead | dstWrite =>
    exact .inl ⟨rfl, rfl, rfl, rfl⟩
  | regWrite off v =>
    obtain ⟨_, _, _, _, _, _, hw⟩ := s.regWrite_frame off v
    rw [hw]
    exact .inl ⟨rfl, rfl, rfl, rfl⟩
  | dstRead a =>
    obtain ⟨_, _, hr⟩ := readDst_frame a s
    rw [hr]
    exact .inl ⟨rfl, rfl, rfl, rfl⟩
  | reset => exact .inr rfl

theorem Status.done_completed : Status.done Status.completed = true := by decide

/-- Settles O45: the OUT registers change only at the end of a DECODE and at a reset. -/
theorem outputsOnlyByDecode : Obligations.OutputsOnlyByDecode := by
  intro s t h
  obtain ⟨ms, h⟩ | ⟨m, ms, hm, h⟩ := step_cases h
  · obtain ⟨hw, hh, hc, hs⟩ | ⟨hp, rfl⟩ := h.outputs
    · exact .inl ⟨hw, hh, hc, hs⟩
    · exact .inr (.inr ⟨hp, Status.done_completed, rfl, rfl, rfl, rfl⟩)
  · obtain ⟨hw, hh, hc, hs⟩ | rfl := h.outputs
    · exact .inl ⟨hw, hh, hc, hs⟩
    · exact .inr (.inl ⟨ms, hm⟩)

/-! ## Register accesses (rules R22, R23) -/

/-- BUSY is the lowest bit of STATUS. -/
theorem Status.busy_eq (v : Byte) : Status.busy v = decide (v.toNat % 2 = 1) := by
  rw [Status.busy, BitVec.getLsbD, Nat.testBit_zero]

/-- While BUSY = 1 no write to CMD has an effect. -/
theorem writeCmd_busy {s : State} (P : Config.Params) (v : Word64)
    (hb : Status.busy s.status = true) : writeCmd (execWith P) v s = .next s := by
  unfold writeCmd
  split
  · rename_i i hi
    obtain ⟨-, rfl⟩ | ⟨-, rfl⟩ := decodeCommand_ok hi
    · exact if_pos hb
    · exact if_pos hb
  · rfl

/-- The command a value names is its low byte's. -/
theorem decodeCommand_setWidth (v : Word64) : decodeCommand (v.setWidth 8) =
    if v.toNat % 256 = 1 then .ok .encode else if v.toNat % 256 = 2 then .ok .decode
    else .error (.reservedCommand (v.setWidth 8)) := by
  have low (k : Byte) : v.setWidth 8 = k ↔ v.toNat % 256 = k.toNat := by
    rw [← BitVec.toNat_inj, BitVec.toNat_setWidth]
  simp only [decodeCommand, low]
  rfl

/-- Settles O22: a write to CMD is the command its low byte names, if nothing runs. -/
theorem cmdWrite : Obligations.CmdWrite := by
  intro s v
  have hw : hostMove (.regWrite 0 v) s = writeCmd exec v s := rfl
  refine ⟨fun hb => ?_, fun _ => ⟨fun h1 => ?_, fun h2 => ?_, fun h1 h2 => ?_⟩⟩ <;> rw [hw]
  · rw [← execWith_block]
    exact writeCmd_busy block v (by rw [Status.busy_eq, decide_eq_true hb])
  · simp [writeCmd, decodeCommand_setWidth, h1]
  · simp [writeCmd, decodeCommand_setWidth, h2]
  · simp [writeCmd, decodeCommand_setWidth, h1, h2]

/-- The register table of rule R22, as a chain of tests. -/
theorem State.regRead_eq (s : State) (off : Nat) : s.regRead off =
    if off = 0x08 then s.status.setWidth 64 else if off = 0x10 then s.inWidth.setWidth 64
    else if off = 0x18 then s.inHeight.setWidth 64 else if off = 0x20 then s.inChannels.setWidth 64
    else if off = 0x28 then s.inColorspace.setWidth 64 else if off = 0x30 then s.srcLen
    else if off = 0x38 then s.dstCap else if off = 0x40 then s.resultLen
    else if off = 0x48 then s.outWidth.setWidth 64 else if off = 0x50 then s.outHeight.setWidth 64
    else if off = 0x58 then s.outChannels.setWidth 64
    else if off = 0x60 then s.outColorspace.setWidth 64 else 0 := by
  unfold State.regRead
  split
  case h_13 => simp_all
  all_goals rfl

/-- Settles O47: a register read gives the table's value and changes only what the host has
read. -/
theorem registerReads : Obligations.RegisterReads := by
  intro s off
  rw [← s.regRead_eq off]
  rfl

/-- What a register write does while BUSY = 0: one case per writable register, and no effect at any
other offset. -/
theorem State.regWrite_cases {s : State} (off : Nat) (v : Word64)
    (hb : Status.busy s.status = false) :
    (off = 0x10 ∧ s.regWrite off v = { s with inWidth := v.setWidth 32 }) ∨
    (off = 0x18 ∧ s.regWrite off v = { s with inHeight := v.setWidth 32 }) ∨
    (off = 0x20 ∧ s.regWrite off v = { s with inChannels := v.setWidth 8 }) ∨
    (off = 0x28 ∧ s.regWrite off v = { s with inColorspace := v.setWidth 8 }) ∨
    (off = 0x30 ∧ s.regWrite off v = { s with srcLen := v }) ∨
    (off = 0x38 ∧ s.regWrite off v = { s with dstCap := v }) ∨
    (off ∉ [0x10, 0x18, 0x20, 0x28, 0x30, 0x38] ∧ s.regWrite off v = s) := by
  unfold State.regWrite
  rw [if_neg (by simp [hb])]
  split
  case h_7 => simp_all
  all_goals simp

theorem State.regWrite_busy {s : State} (off : Nat) (v : Word64)
    (hb : Status.busy s.status = true) : s.regWrite off v = s := if_pos hb

/-- A register write leaves every other register as it was. -/
theorem State.regRead_regWrite_other (s : State) {off o : Nat} (v : Word64) (ho : o ≠ off) :
    (s.regWrite off v).regRead o = s.regRead o := by
  cases hb : Status.busy s.status with
  | true => rw [State.regWrite_busy off v hb]
  | false =>
    obtain ⟨rfl, h⟩ | ⟨rfl, h⟩ | ⟨rfl, h⟩ | ⟨rfl, h⟩ | ⟨rfl, h⟩ | ⟨rfl, h⟩ | ⟨-, h⟩ :=
      State.regWrite_cases off v hb
    all_goals simp only [h, State.regRead_eq, ho, if_false]

/-- Settles O48: a register write stores the low bits of the value in a writable register when
nothing runs. -/
theorem registerWrites : Obligations.RegisterWrites := by
  intro s off v ho
  refine ⟨s.regWrite off v, if_neg ho, fun o h => s.regRead_regWrite_other v h, fun hb => ?_,
    fun hb => ?_, ?_⟩
  · exact State.regWrite_busy off v (by rw [Status.busy_eq, decide_eq_true hb])
  · have hb : Status.busy s.status = false := by simp [Status.busy_eq, hb]
    obtain ⟨rfl, h⟩ | ⟨rfl, h⟩ | ⟨rfl, h⟩ | ⟨rfl, h⟩ | ⟨rfl, h⟩ | ⟨rfl, h⟩ | ⟨hoff, h⟩ :=
      State.regWrite_cases off v hb
    case inr.inr.inr.inr.inr.inr =>
      simp only [List.mem_cons, List.not_mem_nil, or_false, not_or] at hoff
      simp [h, hoff]
    all_goals
      rw [h]
      simp [State.regRead_eq]
    all_goals omega
  · obtain ⟨_, _, _, _, _, _, h⟩ := s.regWrite_frame off v
    rw [h]
    exact ⟨rfl, rfl, rfl, ⟨rfl, rfl, rfl, rfl, rfl, rfl, rfl, rfl⟩, ⟨rfl, rfl, rfl⟩⟩

end Sys2Proof.Machine
end

/-! # Proofs: the encoder's step on one pixel (`43_encoder.md`)

What `encodePixel` and `flushChunks` can give, and the bounds on what they emit. A pending run is
charged one byte (rule R208). -/

section
namespace Sys2Proof.Machine

/-! ## Bytes of chunks -/

@[simp] theorem chunkBytes_nil : chunkBytes [] = [] := rfl

@[simp] theorem chunkBytes_singleton (i : Instr) : chunkBytes [i] = encode i := by
  simp [chunkBytes]

@[simp] theorem chunkBytes_append (is js : List Instr) :
    chunkBytes (is ++ js) = chunkBytes is ++ chunkBytes js := List.flatMap_append

theorem encode_index_length (k : Slot) : (encode (.index k)).length = 1 := rfl

theorem encode_run_length (n : Nat) : (encode (.run n)).length = 1 := rfl

/-- A literal takes at least one byte, and at most one more than a pixel of the image. -/
theorem encode_literalChunk_length {CH : Byte} (px prev : Pixel) (hCH : CH = 3 ∨ CH = 4) :
    1 ≤ (encode (literalChunk CH px prev)).length ∧
      (encode (literalChunk CH px prev)).length ≤ CH.toNat + 1 := by
  have hpos : 3 ≤ CH.toNat := by obtain rfl | rfl := hCH <;> decide
  simp only [literalChunk]
  split
  · rename_i h
    rw [h.1]
    simp [encode]
  · split
    · simp [encode]
    · split <;> simp [encode] <;> omega

/-! ## The flush of a pending run -/

/-- With at most 61 pending, the flush is nothing, or one chunk: INDEX by the tie-break, else RUN
(rule R195). -/
theorem flushChunks_cases (P : Config.Params) {run : BitVec 6} (prev : Pixel) (ca : Cache)
    (h : run.toNat ≤ 61) :
    (run = 0 ∧ flushChunks P run prev ca = []) ∨
    (run = 1 ∧ P.tieBreak = true ∧ ca[slot P prev] = prev ∧
      flushChunks P run prev ca = [.index (slot P prev)]) ∨
    (run ≠ 0 ∧ ¬ (run = 1 ∧ P.tieBreak = true ∧ ca[slot P prev] = prev) ∧
      flushChunks P run prev ca = [.run run.toNat]) := by
  have hdiv : run.toNat / 62 = 0 := by omega
  have hmod : run.toNat % 62 = run.toNat := by omega
  have h0 : run = 0 ↔ run.toNat = 0 := by rw [← BitVec.toNat_inj]; rfl
  have h1 : run = 1 ↔ run.toNat = 1 := by rw [← BitVec.toNat_inj]; rfl
  simp only [flushChunks, hdiv, hmod, List.replicate_zero, List.nil_append, ne_eq, h0, h1]
  split
  · rename_i hc
    exact .inr (.inl ⟨hc.1, hc.2.1, hc.2.2, rfl⟩)
  · rename_i hc
    split
    · exact .inr (.inr ⟨by omega, hc, rfl⟩)
    · exact .inl ⟨by omega, rfl⟩

/-- The flush takes the byte the pending run is charged. -/
theorem chunkBytes_flushChunks_length (P : Config.Params) {run : BitVec 6} (prev : Pixel)
    (ca : Cache) (h : run.toNat ≤ 61) :
    (chunkBytes (flushChunks P run prev ca)).length = if run = 0 then 0 else 1 := by
  obtain ⟨h0, hf⟩ | ⟨h1, -, -, hf⟩ | ⟨h0, -, hf⟩ := flushChunks_cases P prev ca h <;> rw [hf]
  · rw [if_pos h0]
    rfl
  · rw [h1, if_neg (by decide)]
    rfl
  · rw [if_neg h0]
    rfl

/-! ## One pixel -/

/-- What the encoder's step on a pixel can give (rule R192): a run that is full, a longer run, a
slot of the cache, or a literal. -/
theorem encodePixel_cases (P : Config.Params) (CH : Byte) (px prev : Pixel) (run : BitVec 6)
    (ca : Cache) :
    (px = prev ∧ run + 1 = 62 ∧ encodePixel P CH px prev run ca = ⟨[.run 62], px, 0, ca⟩) ∨
    (px = prev ∧ run + 1 ≠ 62 ∧ encodePixel P CH px prev run ca = ⟨[], px, run + 1, ca⟩) ∨
    (px ≠ prev ∧ ca[slot P px] = px ∧ encodePixel P CH px prev run ca =
      ⟨flushChunks P run prev ca ++ [.index (slot P px)], px, 0, ca⟩) ∨
    (px ≠ prev ∧ ca[slot P px] ≠ px ∧ encodePixel P CH px prev run ca =
      ⟨flushChunks P run prev ca ++ [literalChunk CH px prev], px, 0,
        cachePut ca (slot P px) px⟩) := by
  unfold encodePixel
  split
  · rename_i hpx
    subst hpx
    split
    · exact .inl ⟨rfl, ‹_›, rfl⟩
    · exact .inr (.inl ⟨rfl, ‹_›, rfl⟩)
  · rename_i hpx
    split
    · exact .inr (.inr (.inl ⟨hpx, ‹_›, rfl⟩))
    · exact .inr (.inr (.inr ⟨hpx, ‹_›, rfl⟩))

section
variable (P : Config.Params) (CH : Byte) (px prev : Pixel) (run : BitVec 6) (ca : Cache)

@[simp] theorem encodePixel_prev : (encodePixel P CH px prev run ca).prev = px := by
  obtain ⟨-, -, h⟩ | ⟨-, -, h⟩ | ⟨-, -, h⟩ | ⟨-, -, h⟩ :=
    encodePixel_cases P CH px prev run ca <;> rw [h]

/-- A run that goes on is one longer, and not yet 62. -/
theorem encodePixel_run_le (hr : run.toNat ≤ 61) :
    (encodePixel P CH px prev run ca).run.toNat ≤ 61 := by
  obtain ⟨-, -, h⟩ | ⟨-, hne, h⟩ | ⟨-, -, h⟩ | ⟨-, -, h⟩ :=
    encodePixel_cases P CH px prev run ca <;> rw [h]
  case inr.inl => bv_omega
  all_goals exact Nat.zero_le _

/-- The encoder's step keeps the slot invariant (`40_cache_hash.md` rule R139). -/
theorem encodePixel_slotOk (hs : SlotOk P ca) :
    SlotOk P (encodePixel P CH px prev run ca).cache := by
  obtain ⟨-, -, h⟩ | ⟨-, -, h⟩ | ⟨-, -, h⟩ | ⟨-, -, h⟩ :=
    encodePixel_cases P CH px prev run ca <;> rw [h]
  case inr.inr.inr => exact SlotOk_cachePut P ca px hs
  all_goals exact hs

/-- After the encoder's step the pixel is in its slot (`40_cache_hash.md` rule R138). -/
theorem encodePixel_held (hp : ca[slot P prev] = prev) :
    (encodePixel P CH px prev run ca).cache[slot P px] = px := by
  obtain ⟨rfl, -, h⟩ | ⟨rfl, -, h⟩ | ⟨-, hhit, h⟩ | ⟨-, -, h⟩ :=
    encodePixel_cases P CH px prev run ca <;> rw [h]
  · exact hp
  · exact hp
  · exact hhit
  · exact cachePut_same ca _ px

/-- A pixel emits a byte or leaves a run pending; and it adds at most `CH + 1` bytes, a pending run
being charged one byte before and after (rule R208). -/
theorem encodePixel_bytes (hCH : CH = 3 ∨ CH = 4) (hr : run.toNat ≤ 61) :
    1 ≤ (chunkBytes (encodePixel P CH px prev run ca).chunks).length +
      (if (encodePixel P CH px prev run ca).run = 0 then 0 else 1) ∧
    (chunkBytes (encodePixel P CH px prev run ca).chunks).length +
      (if (encodePixel P CH px prev run ca).run = 0 then 0 else 1) ≤
      (if run = 0 then 0 else 1) + (CH.toNat + 1) := by
  have hflush := chunkBytes_flushChunks_length P prev ca hr
  have hlit := encode_literalChunk_length px prev hCH
  obtain ⟨-, -, h⟩ | ⟨-, -, h⟩ | ⟨-, -, h⟩ | ⟨-, -, h⟩ :=
    encodePixel_cases P CH px prev run ca <;> rw [h]
  · rw [if_pos rfl, chunkBytes_singleton, encode_run_length]
    omega
  · rw [if_neg (show run + 1 ≠ 0 by bv_omega), chunkBytes_nil,
      List.length_nil]
    omega
  · rw [if_pos rfl, chunkBytes_append, List.length_append, hflush, chunkBytes_singleton,
      encode_index_length]
    omega
  · rw [if_pos rfl, chunkBytes_append, List.length_append, hflush, chunkBytes_singleton]
    omega

end

/-- A fetched pixel of three channels has alpha 255 (rule R191). -/
theorem State.fetchPixel_alpha {s : State} (h : s.CH = 3) : s.fetchPixel.a = 255 := by
  simp [State.fetchPixel, h, pixelStride, State.srcBytes, pixelOfBytes]

end Sys2Proof.Machine
end

/-! # Proofs: the invariant of the machine

`State.Inv` is kept by every step, part by part: the memories' form, STATUS (`EngineStep.statusOk`,
`HostStep.statusOk`), and what each phase has established. -/

section
namespace Sys2Proof.Machine

/-! ## The canonical form of the memories -/

theorem State.MemOk.append {s : State} {bs : List Byte} (h : s.MemOk)
    (room : s.out + bs.length ≤ s.dst.size) : (s.append bs).MemOk :=
  ⟨h.src, s.dst.wf_writeAll s.out bs h.dst room⟩

theorem State.MemOk.scrambleDst {s : State} (h : s.MemOk) : s.scrambleDst.MemOk := by
  refine ⟨h.src, s.dst.wf_writeAll 0 _ h.dst ?_⟩
  rw [freeBytes_length, State.dstWindow]
  omega

theorem State.MemOk.fail {s : State} (h : s.MemOk) (e : ErrKind) : (s.fail e).MemOk :=
  ⟨h.scrambleDst.src, h.scrambleDst.dst⟩

theorem State.MemOk.hardReset {s : State} (h : s.MemOk) : s.hardReset.MemOk := by
  unfold State.hardReset
  split
  · exact ⟨h.scrambleDst.src, h.scrambleDst.dst⟩
  · exact ⟨h.src, h.dst⟩

theorem State.MemOk.emitted {s : State} (h : s.MemOk)
    (room : s.out + pixelStride s.cEff ≤ s.dst.size) : s.emitted.MemOk :=
  State.MemOk.append (s := { s with i := s.i + 1 }) ⟨h.src, h.dst⟩ (by simpa using room)

/-- The engine keeps the memories' form. -/
theorem EngineStep.memOk {P : Config.Params} {s t : State} (hs : s.MemOk)
    (h : EngineStep P s t) : t.MemOk := by
  cases h with
  | idle => exact hs
  | fail _ e => exact hs.fail e
  | eCheck | ePixelsDone | dCheck | dHeader | dDone => exact ⟨hs.src, hs.dst⟩
  | eHeader _ room | ePixel _ _ _ room | eFlush _ room =>
    exact State.MemOk.append ⟨hs.src, hs.dst⟩ room
  | eTrailer _ room => exact ⟨(hs.append room).src, (hs.append room).dst⟩
  | dRepeat _ _ _ room => exact State.MemOk.emitted ⟨hs.src, hs.dst⟩ room
  | dChunk _ _ _ i _ room =>
    obtain ⟨p, q, rr, ca, hc⟩ := afterChunk_frame P i s
    rw [hc]
    exact State.MemOk.emitted ⟨hs.src, hs.dst⟩ room

/-- The host's moves keep the memories' form. -/
theorem HostStep.memOk {s t : State} {m : HostMove} (hs : s.MemOk) (h : HostStep s m t) :
    t.MemOk := by
  cases h with
  | ignored => exact hs
  | encode | decode | regRead | srcRead => exact ⟨hs.src, hs.dst⟩
  | regWrite off v =>
    obtain ⟨_, _, _, _, _, _, hw⟩ := s.regWrite_frame off v
    rw [hw]
    exact ⟨hs.src, hs.dst⟩
  | srcWrite a v _ ha => exact ⟨s.src.wf_write a v hs.src ha, hs.dst⟩
  | dstWrite a v _ ha => exact ⟨hs.src, s.dst.wf_write a v hs.dst ha⟩
  | dstRead a =>
    obtain ⟨_, _, hr⟩ := readDst_frame a s
    rw [hr]
    exact ⟨hs.src, hs.dst⟩
  | reset => exact hs.hardReset

/-! ## Descriptors (`42_header_codec.md` rule R175) -/

theorem validDesc_iff (P : Config.Params) (w h : Word32) (ch : Byte) :
    validDesc P w h ch = true ↔ 0 < w.toNat ∧ 0 < h.toNat ∧ (ch = 3 ∨ ch = 4) ∧
      h.toNat < P.pixelsMax / w.toNat := by
  simp only [validDesc, Bool.and_eq_true, Bool.or_eq_true, decide_eq_true_eq, and_assoc]

theorem pixels_pos_of_validDesc {P : Config.Params} {s : State}
    (h : validDesc P s.W s.Hgt s.CH = true) : 0 < s.pixels := by
  obtain ⟨hw, hh, -, -⟩ := (validDesc_iff _ _ _ _).1 h
  exact Nat.mul_pos hw hh

theorem channels_of_validDesc {P : Config.Params} {w h : Word32} {ch : Byte}
    (hv : validDesc P w h ch = true) : ch = 3 ∨ ch = 4 :=
  ((validDesc_iff _ _ _ _).1 hv).2.2.1

/-- A parsed descriptor is valid. -/
theorem validDesc_of_parseHeader {P : Config.Params} {bs : List Byte} {d : Descriptor}
    (h : parseHeader P bs = some d) : validDesc P d.W d.Hgt d.CH = true := by
  unfold parseHeader at h
  split at h
  · split at h
    · rename_i hv
      cases h
      exact hv.2
    · cases h
  · cases h

/-! ## The default seed (`40_cache_hash.md` rules R133, R138, R139) -/

theorem slotOk_defaultSeed (P : Config.Params) : SlotOk P (defaultSeed P.hash) := by
  refine SlotOk_cachePut P (Vector.replicate 64 ⟨0, 0, 0, 0⟩) seedPixel fun k => .inl ?_
  simp

theorem defaultSeed_held (P : Config.Params) :
    (defaultSeed P.hash)[slot P seedPixel] = seedPixel :=
  cachePut_same (Vector.replicate 64 ⟨0, 0, 0, 0⟩) (slot P seedPixel) seedPixel

/-! ## What each phase has established -/

section
variable {P : Config.Params} {s : State}

theorem State.phaseOk_eHeader (hp : s.phase = .eHeader) : s.PhaseOk P ↔ s.EncodeOk P ∧ s.i = 0 ∧
    s.out = 0 ∧ s.run = 0 ∧ s.prev = seedPixel ∧ s.cache = P.cacheSeed := by
  simp only [State.PhaseOk, hp]

theorem State.phaseOk_ePixels (hp : s.phase = .ePixels) : s.PhaseOk P ↔ s.EncoderOk P := by
  simp only [State.PhaseOk, hp]

theorem State.phaseOk_eFlush (hp : s.phase = .eFlush) :
    s.PhaseOk P ↔ s.EncoderOk P ∧ s.i = s.pixels := by
  simp only [State.PhaseOk, hp]

theorem State.phaseOk_eTrailer (hp : s.phase = .eTrailer) : s.PhaseOk P ↔ s.EncodeOk P ∧
    headerSize + 1 ≤ s.out ∧ s.out ≤ headerSize + s.pixels * (s.CH.toNat + 1) := by
  simp only [State.PhaseOk, hp]

theorem State.phaseOk_dHeader (hp : s.phase = .dHeader) : s.PhaseOk P ↔
    (s.c = 0 ∨ s.c = 3 ∨ s.c = 4) ∧ s.total.toNat ≤ s.src.size ∧ s.cap.toNat ≤ s.dst.size := by
  simp only [State.PhaseOk, hp]

theorem State.phaseOk_dPixels (hp : s.phase = .dPixels) : s.PhaseOk P ↔ s.DecoderOk P := by
  simp only [State.PhaseOk, hp]

end

/-- The engine's part of the state is the same: the phase, the working registers, the cache and the
sizes of the memories. -/
structure SameEngine (s t : State) : Prop where
  phase : t.phase = s.phase
  prev : t.prev = s.prev
  run : t.run = s.run
  remainingRun : t.remainingRun = s.remainingRun
  pos : t.pos = s.pos
  i : t.i = s.i
  out : t.out = s.out
  cache : t.cache = s.cache
  srcSize : t.src.size = s.src.size
  dstSize : t.dst.size = s.dst.size
  command : SameCommand s t

section
variable {P : Config.Params} {s t : State}

theorem SameCommand.pixels (h : SameCommand s t) : t.pixels = s.pixels := by
  rw [State.pixels, State.pixels, h.W, h.Hgt]

/-- The arguments of ENCODE stay checked while they and the memories' sizes stay. -/
theorem State.EncodeOk.transfer (hs : s.EncodeOk P) (hc : SameCommand s t)
    (hsrc : t.src.size = s.src.size) (hdst : t.dst.size = s.dst.size) : t.EncodeOk P := by
  obtain ⟨desc, source, srcSize, bound, dstSize⟩ := hs
  constructor
  · rwa [hc.W, hc.Hgt, hc.CH]
  · rwa [hc.pixels, hc.CH, hc.total]
  · rwa [hc.total, hsrc]
  · rwa [State.encodeBound, hc.pixels, hc.CH, hc.cap]
  · rwa [hc.cap, hdst]

theorem State.EncoderOk.transfer (hs : s.EncoderOk P) (h : SameEngine s t) : t.EncoderOk P := by
  obtain ⟨args, index, run, header, low, high, alpha, slots, held⟩ := hs
  have hc := h.command
  constructor
  · exact args.transfer hc h.srcSize h.dstSize
  · rwa [h.i, hc.pixels]
  · rwa [h.run]
  · rwa [h.out]
  · rwa [h.i, h.out, h.run]
  · rwa [h.i, h.out, h.run, hc.CH]
  · rwa [hc.CH, h.prev]
  · rwa [h.cache]
  · simpa only [h.prev, h.cache] using held

theorem State.DecoderOk.transfer (hs : s.DecoderOk P) (h : SameEngine s t) : t.DecoderOk P := by
  obtain ⟨desc, cEff, channels, srcSize, bound, dstSize, index, out, posLow, posHigh, run, slots⟩ := hs
  have hc := h.command
  constructor
  · rwa [hc.W, hc.Hgt, hc.CH]
  · rwa [hc.cEff, hc.c, hc.CH]
  · rwa [hc.cEff]
  · rwa [hc.total, h.srcSize]
  · rwa [hc.pixels, hc.cEff, hc.cap]
  · rwa [hc.cap, h.dstSize]
  · rwa [h.i, hc.pixels]
  · rwa [h.out, h.i, hc.cEff]
  · rwa [h.pos]
  · rwa [h.pos, hc.total]
  · rwa [h.remainingRun]
  · rwa [h.cache]

/-- What a phase has established depends on the engine's part of the state only. -/
theorem State.PhaseOk.transfer (hs : s.PhaseOk P) (h : SameEngine s t) : t.PhaseOk P := by
  have hp := h.phase
  have hc := h.command
  cases hph : s.phase <;> rw [hph] at hp
  case idle | eCheck | dCheck => simp only [State.PhaseOk, hp]
  case eHeader =>
    obtain ⟨args, hi, hout, hrun, hprev, hcache⟩ := (State.phaseOk_eHeader hph).1 hs
    exact (State.phaseOk_eHeader hp).2 ⟨args.transfer hc h.srcSize h.dstSize, h.i.trans hi,
      h.out.trans hout, h.run.trans hrun, h.prev.trans hprev, h.cache.trans hcache⟩
  case ePixels =>
    exact (State.phaseOk_ePixels hp).2 (((State.phaseOk_ePixels hph).1 hs).transfer h)
  case eFlush =>
    obtain ⟨enc, hi⟩ := (State.phaseOk_eFlush hph).1 hs
    exact (State.phaseOk_eFlush hp).2 ⟨enc.transfer h, by rw [h.i, hc.pixels, hi]⟩
  case eTrailer =>
    obtain ⟨args, low, high⟩ := (State.phaseOk_eTrailer hph).1 hs
    exact (State.phaseOk_eTrailer hp).2 ⟨args.transfer hc h.srcSize h.dstSize, by rwa [h.out],
      by rwa [h.out, hc.pixels, hc.CH]⟩
  case dHeader =>
    obtain ⟨hcs, hsrc, hdst⟩ := (State.phaseOk_dHeader hph).1 hs
    exact (State.phaseOk_dHeader hp).2 ⟨by rwa [hc.c], by rwa [hc.total, h.srcSize],
      by rwa [hc.cap, h.dstSize]⟩
  case dPixels =>
    exact (State.phaseOk_dPixels hp).2 (((State.phaseOk_dPixels hph).1 hs).transfer h)

/-- The host's moves keep what the phase has established: they leave the engine's part alone, start
a command, or end it. -/
theorem HostStep.phaseOk {m : HostMove} (hs : s.PhaseOk P) (h : HostStep s m t) :
    t.PhaseOk P := by
  cases h with
  | ignored => exact hs
  | encode | decode | reset => trivial
  | regWrite off v =>
    obtain ⟨_, _, _, _, _, _, hw⟩ := s.regWrite_frame off v
    rw [hw]
    exact hs.transfer (by repeat' constructor)
  | regRead | srcWrite | srcRead | dstWrite =>
    exact hs.transfer (by repeat' constructor)
  | dstRead a =>
    obtain ⟨_, _, hr⟩ := readDst_frame a s
    rw [hr]
    exact hs.transfer (by repeat' constructor)

end
end Sys2Proof.Machine
end

/-! # Proofs: the engine keeps the invariant -/

section
namespace Sys2Proof.Machine

section
variable {P : Config.Params} {s t : State}

/-! ## The phases of ENCODE -/

/-- E_HEADER leaves the encoder before its first pixel: 14 bytes out, the seeds in place. -/
theorem State.EncodeOk.afterHeader (hseed : P.cacheSeed = defaultSeed P.hash)
    (args : s.EncodeOk P) (hi : s.i = 0) (hout : s.out = 0) (hrun : s.run = 0)
    (hprev : s.prev = seedPixel) (hcache : s.cache = P.cacheSeed) :
    State.EncoderOk (({ s with phase := .ePixels } : State).append
      (headerBytes s.W s.Hgt s.CH s.CS)) P := by
  have hlen : (headerBytes s.W s.Hgt s.CH s.CS).length = headerSize := rfl
  constructor
  case args => exact args.transfer ⟨rfl, rfl, rfl, rfl, rfl, rfl, rfl, rfl⟩ rfl (by simp)
  case slots => simpa [hcache, hseed] using slotOk_defaultSeed P
  case prevHeld => simpa [hcache, hprev, hseed] using defaultSeed_held P
  all_goals simp [hi, hout, hrun, hprev, hlen, seedPixel]

/-- A pixel of E_PIXELS keeps the bounds, the alpha rule and the cache properties. -/
theorem State.EncoderOk.pixelEncoded (hs : s.EncoderOk P) (hi : s.i < s.pixels) :
    (s.pixelEncoded P).EncoderOk P := by
  obtain ⟨args, index, run, header, low, high, alpha, slots, held⟩ := hs
  obtain ⟨hpos, hle⟩ := encodePixel_bytes P s.CH s.fetchPixel s.prev s.run s.cache
    (channels_of_validDesc args.desc) run
  rw [← State.encoded] at hpos hle
  have hout : (s.pixelEncoded P).out = s.out + (chunkBytes (s.encoded P).chunks).length := rfl
  have hrun : (s.pixelEncoded P).run = (s.encoded P).run := rfl
  have hidx : (s.pixelEncoded P).i = s.i + 1 := rfl
  have hCH : (s.pixelEncoded P).CH = s.CH := rfl
  have hprev : (s.pixelEncoded P).prev = s.fetchPixel := encodePixel_prev ..
  constructor
  case args =>
    exact args.transfer ⟨rfl, rfl, rfl, rfl, rfl, rfl, rfl, rfl⟩ rfl (Memory.writeAll_size ..)
  case index => exact hi
  case run => exact encodePixel_run_le _ _ _ _ _ _ run
  case header => omega
  case low =>
    rw [hout, hrun, hidx, if_neg (Nat.succ_ne_zero _)]
    omega
  case high =>
    rw [hout, hrun, hidx, hCH, Nat.succ_mul]
    omega
  case alpha =>
    rw [hCH, hprev]
    exact fun h => s.fetchPixel_alpha h
  case slots => exact encodePixel_slotOk _ _ _ _ _ _ slots
  case prevHeld =>
    simp only [hprev]
    exact encodePixel_held _ _ _ _ _ _ held

/-! ## The phases of DECODE -/

/-- D_HEADER leaves the decoder before its first pixel. -/
theorem State.decoderOk_afterHeader (hseed : P.cacheSeed = defaultSeed P.hash)
    (hc : s.c = 0 ∨ s.c = 3 ∨ s.c = 4) (hsrc : s.total.toNat ≤ s.src.size)
    (hdst : s.cap.toNat ≤ s.dst.size) {d : Descriptor}
    (hd : validDesc P d.W d.Hgt d.CH = true) (htotal : 22 ≤ s.total.toNat)
    (hcap : d.W.toNat * d.Hgt.toNat * (effectiveChannels s.c d.CH).toNat ≤ s.cap.toNat) :
    State.DecoderOk { (s.latchDescriptor d).seedDecoder P with phase := .dPixels } P where
  desc := hd
  cEff := rfl
  channels := by
    obtain hc | hc | hc := hc
    · simpa [effectiveChannels, hc] using channels_of_validDesc hd
    · simp [effectiveChannels, hc]
    · simp [effectiveChannels, hc]
  srcSize := hsrc
  bound := hcap
  dstSize := hdst
  index := Nat.zero_le _
  out := (Nat.zero_mul _).symm
  posLow := le_refl headerSize
  posHigh := Nat.le_trans (show headerSize + 4 ≤ 22 by decide) htotal
  run := Nat.zero_le 61
  slots := by simpa [hseed] using slotOk_defaultSeed P

theorem pixelStride_eq_toNat {ch : Byte} (h : ch = 3 ∨ ch = 4) : pixelStride ch = ch.toNat := by
  obtain rfl | rfl := h <;> rfl

/-- Emitting a pixel while one is left keeps the decoder's bounds. -/
theorem State.DecoderOk.emitted (hs : s.DecoderOk P) (hi : s.i < s.pixels) :
    s.emitted.DecoderOk P where
  desc := hs.desc
  cEff := hs.cEff
  channels := hs.channels
  srcSize := hs.srcSize
  bound := hs.bound
  dstSize := Nat.le_trans hs.dstSize (Memory.writeAll_size ..).ge
  index := hi
  out := by
    change s.out + (pixelBytes s.cEff s.px).length = (s.i + 1) * s.cEff.toNat
    rw [pixelBytes_length, pixelStride_eq_toNat hs.channels, hs.out, Nat.succ_mul]
  posLow := hs.posLow
  posHigh := hs.posHigh
  run := hs.run
  slots := hs.slots

/-- A pixel of a pending run leaves one less pending. -/
theorem State.DecoderOk.runCounted (hs : s.DecoderOk P) (hr : s.remainingRun ≠ 0) :
    State.DecoderOk { s with remainingRun := s.remainingRun - 1 } P where
  __ := hs
  run := by
    have hrun := hs.run
    change (s.remainingRun - 1).toNat ≤ 61
    bv_omega

@[simp] theorem afterChunk_phase (P : Config.Params) (i : Instr) (s : State) :
    (afterChunk P i s).phase = s.phase := by cases i <;> rfl

/-- A chunk takes at most five bytes (`30_encoding.md` rule R103). -/
theorem afterChunk_pos (P : Config.Params) (i : Instr) (s : State) :
    s.pos ≤ (afterChunk P i s).pos ∧ (afterChunk P i s).pos ≤ s.pos + 5 := by
  cases i <;> simp [afterChunk]

/-- Every chunk keeps the slot invariant (`40_cache_hash.md` rule R139). -/
theorem afterChunk_slotOk (i : Instr) (h : SlotOk P s.cache) :
    SlotOk P (afterChunk P i s).cache := by
  cases i with
  | index | encode | decode => exact h
  | rgb | rgba | diff | luma | run => exact SlotOk_cachePut P s.cache _ h

/-- A chunk leaves at most 61 pixels of a run pending (`30_encoding.md` rule R106). -/
theorem afterChunk_run_le {i : Instr} (hw : i.wellFormed = true) (h : s.remainingRun.toNat ≤ 61) :
    (afterChunk P i s).remainingRun.toNat ≤ 61 := by
  cases i with
  | run n =>
    have hn : 1 ≤ n ∧ n ≤ 62 := of_decide_eq_true hw
    change (BitVec.ofNat 6 (n - 1)).toNat ≤ 61
    rw [BitVec.toNat_ofNat]
    omega
  | rgb | rgba | index | diff | luma | encode | decode => exact h

/-- A chunk fetched from the stream keeps the decoder's bounds: its tag lies before the last eight
bytes (`44_decoder.md` rule R236). -/
theorem State.DecoderOk.chunkTaken {i : Instr} (hs : s.DecoderOk P) (hf : fetchChunk s = .chunk i) :
    (afterChunk P i s).DecoderOk P := by
  obtain ⟨htag, -⟩ := fetchChunk_chunk s i hf
  obtain ⟨hlo, hhi⟩ := afterChunk_pos P i s
  have hrun := afterChunk_run_le (P := P) (fetchChunk_isChunk_wellFormed hf).2 hs.run
  have hslots := afterChunk_slotOk i hs.slots
  have hlow := Nat.le_trans hs.posLow hlo
  have hhigh : (afterChunk P i s).pos + 4 ≤ s.total.toNat := by omega
  obtain ⟨p, q, rr, ca, hc⟩ := afterChunk_frame P i s
  rw [hc] at hlow hhigh hrun hslots ⊢
  exact { hs with posLow := hlow, posHigh := hhigh, run := hrun, slots := hslots }

/-! ## Every step -/

/-- The engine's steps keep what the phase has established. -/
theorem EngineStep.phaseOk (hseed : P.cacheSeed = defaultSeed P.hash) (hs : s.PhaseOk P)
    (h : EngineStep P s t) : t.PhaseOk P := by
  cases h with
  | idle => exact hs
  | fail | eTrailer | dDone => trivial
  | eCheck hp ok =>
    have args := ok.transfer (t := { s.seedEncoder P with phase := .eHeader })
      ⟨rfl, rfl, rfl, rfl, rfl, rfl, rfl, rfl⟩ rfl rfl
    exact (State.phaseOk_eHeader rfl).2 ⟨args, rfl, rfl, rfl, rfl, rfl⟩
  | eHeader hp room =>
    obtain ⟨args, hi, hout, hrun, hprev, hcache⟩ := (State.phaseOk_eHeader hp).1 hs
    exact (State.phaseOk_ePixels rfl).2 (args.afterHeader hseed hi hout hrun hprev hcache)
  | ePixel hp hi =>
    have enc := (State.phaseOk_ePixels hp).1 hs
    exact (State.phaseOk_ePixels (by simpa [State.pixelEncoded] using hp)).2 (enc.pixelEncoded hi)
  | ePixelsDone hp hi =>
    have enc := (State.phaseOk_ePixels hp).1 hs
    exact (State.phaseOk_eFlush rfl).2 ⟨{ enc with args := { enc.args with } },
      Nat.le_antisymm enc.index hi⟩
  | eFlush hp room =>
    obtain ⟨enc, hi⟩ := (State.phaseOk_eFlush hp).1 hs
    obtain ⟨args, index, run, header, low, high, alpha, slots, held⟩ := enc
    have hlen := chunkBytes_flushChunks_length P s.prev s.cache run
    have hpos := pixels_pos_of_validDesc args.desc
    rw [hi, if_neg (by omega)] at low
    rw [hi] at high
    refine (State.phaseOk_eTrailer rfl).2 ⟨?_, ?_, ?_⟩
    · exact args.transfer ⟨rfl, rfl, rfl, rfl, rfl, rfl, rfl, rfl⟩ rfl (Memory.writeAll_size ..)
    · rw [State.append_out, hlen]
      exact low
    · rw [State.append_out, hlen]
      exact high
  | dCheck hp hc hsrc hdst => exact (State.phaseOk_dHeader rfl).2 ⟨hc, hsrc, hdst⟩
  | dHeader hp d hd htotal hcap =>
    obtain ⟨hc, hsrc, hdst⟩ := (State.phaseOk_dHeader hp).1 hs
    exact (State.phaseOk_dPixels rfl).2 (State.decoderOk_afterHeader hseed hc hsrc hdst
      (validDesc_of_parseHeader hd) htotal hcap)
  | dRepeat hp hi hr =>
    have dec := (State.phaseOk_dPixels hp).1 hs
    exact (State.phaseOk_dPixels (by simpa [State.emitted] using hp)).2
      ((dec.runCounted hr).emitted hi)
  | dChunk hp hi hr i hf =>
    have dec := ((State.phaseOk_dPixels hp).1 hs).chunkTaken hf
    refine (State.phaseOk_dPixels (by simpa [State.emitted] using hp)).2 (dec.emitted ?_)
    obtain ⟨p, q, rr, ca, hc⟩ := afterChunk_frame P i s
    rwa [hc]

end

/-- Every step of a block with the default seed of its hash keeps the invariant. -/
theorem stepOf_keeps_inv {P : Config.Params} (hseed : P.cacheSeed = defaultSeed P.hash) {s t : State}
    (hs : s.Inv P) (h : stepOf P s = .next t) : t.Inv P := by
  refine stepOf_keeps (I := fun s => s.Inv P) ?_ ?_ ?_ hs h
  · rintro s ms ⟨mem, status, phase⟩
    exact ⟨⟨mem.src, mem.dst⟩, status.stays rfl rfl, phase.transfer (by repeat' constructor)⟩
  · rintro s t ⟨mem, status, phase⟩ h
    exact ⟨h.memOk mem, h.statusOk status, h.phaseOk hseed phase⟩
  · rintro s m t ⟨mem, status, phase⟩ h
    exact ⟨h.memOk mem, h.statusOk status, h.phaseOk phase⟩

/-- Settles O54: this block's seed is the default seed of its hash, so it is one of the blocks of
`stepOf_keeps_inv`. -/
theorem invariantKept : Obligations.InvariantKept :=
  ⟨fun _ _ hs h => stepOf_keeps_inv (P := block) rfl hs (stepOf_block ▸ h),
    fun _ hseed _ _ => stepOf_keeps_inv hseed⟩

end Sys2Proof.Machine
end

/-! # Proofs: the attached memories (`20_memory.md`)

What the engine and the host do to SRC and DST: the form of both is kept, the engine only reads SRC,
its writes stay below `cap`, and none of its accesses reaches outside a memory. -/

section
namespace Sys2Proof.Machine

/-- Settles O52: the engine's steps and the host's moves keep the memories' form. -/
theorem memoryFormKept : Obligations.MemoryFormKept := by
  intro s t hs h
  exact stepOf_keeps (P := block) (I := State.MemOk) (fun _ _ h => ⟨h.src, h.dst⟩)
    (fun _ _ h => EngineStep.memOk h) (fun _ _ _ h => HostStep.memOk h) hs (stepOf_block ▸ h)

/-! ## What the engine only reads (rule R62) -/

/-- The engine writes neither SRC nor the registers the host programs. -/
theorem EngineStep.inputs {P : Config.Params} {s t : State} (h : EngineStep P s t) :
    t.src = s.src ∧ SameInputs s t := by
  cases h with
  | idle | fail | eCheck | eHeader | ePixel | ePixelsDone | eFlush | eTrailer | dCheck | dHeader
  | dRepeat | dDone => exact ⟨rfl, rfl, rfl, rfl, rfl, rfl, rfl⟩
  | dChunk hp hi hr i =>
    obtain ⟨p, q, rr, ca, hc⟩ := afterChunk_frame P i s
    rw [hc]
    exact ⟨rfl, rfl, rfl, rfl, rfl, rfl, rfl⟩

/-- Settles O44: the engine only reads its inputs. -/
theorem engineKeepsInputs : Obligations.EngineKeepsInputs :=
  fun _ _ h => (engineStep_cases h).inputs

/-! ## What the engine writes lies below `cap` (rules R60, R69) -/

section
variable {P : Config.Params} {s t : State}

/-- What E_CHECK has bounded: the header, the chunks at their longest, and the trailer
(`45_commands.md` rule R271). -/
theorem State.EncodeOk.stream_le (hs : s.EncodeOk P) :
    headerSize + s.pixels * (s.CH.toNat + 1) + trailer.length ≤ s.cap.toNat := by
  have hbound : s.pixels * (s.CH.toNat + 1) + 22 ≤ s.cap.toNat := hs.bound
  change 14 + s.pixels * (s.CH.toNat + 1) + 8 ≤ s.cap.toNat
  omega

theorem State.EncodeOk.headerRoom (hs : s.EncodeOk P) (hout : s.out = 0) :
    s.out + (headerBytes s.W s.Hgt s.CH s.CS).length ≤ s.cap.toNat := by
  have hlen : (headerBytes s.W s.Hgt s.CH s.CS).length = headerSize := rfl
  have hstream := hs.stream_le
  omega

theorem State.EncodeOk.trailerRoom (hs : s.EncodeOk P)
    (hout : s.out ≤ headerSize + s.pixels * (s.CH.toNat + 1)) :
    s.out + trailer.length ≤ s.cap.toNat :=
  (Nat.add_le_add_right hout _).trans hs.stream_le

/-- Between two pixels there is still room for the byte of a pending run (`43_encoder.md` rule
R208). -/
theorem State.EncoderOk.out_le (hs : s.EncoderOk P) :
    s.out + (if s.run = 0 then 0 else 1) ≤ s.cap.toNat := by
  have hpix : s.i * (s.CH.toNat + 1) ≤ s.pixels * (s.CH.toNat + 1) := Nat.mul_le_mul_right _ hs.index
  have hhigh := hs.high
  have hstream := hs.args.stream_le
  omega

/-- A pixel's chunks have room: the state after them meets the encoder's bounds again. -/
theorem State.EncoderOk.pixelRoom (hs : s.EncoderOk P) (hi : s.i < s.pixels) :
    s.out + (chunkBytes (s.encoded P).chunks).length ≤ s.cap.toNat := by
  have hafter : s.out + (chunkBytes (s.encoded P).chunks).length +
      (if (s.encoded P).run = 0 then 0 else 1) ≤ s.cap.toNat := (hs.pixelEncoded hi).out_le
  omega

/-- The flush takes the byte its run has been charged. -/
theorem State.EncoderOk.flushRoom (hs : s.EncoderOk P) :
    s.out + (chunkBytes (flushChunks P s.run s.prev s.cache)).length ≤ s.cap.toNat := by
  rw [chunkBytes_flushChunks_length P s.prev s.cache hs.run]
  exact hs.out_le

/-- A decoded pixel has room: `out` counts the bytes of the pixels so far. -/
theorem State.DecoderOk.pixelRoom (hs : s.DecoderOk P) (hi : s.i < s.pixels) :
    s.out + pixelStride s.cEff ≤ s.cap.toNat := by
  have hpix : (s.i + 1) * s.cEff.toNat ≤ s.pixels * s.cEff.toNat := Nat.mul_le_mul_right _ hi
  rw [pixelStride_eq_toNat hs.channels, hs.out, ← Nat.succ_mul]
  exact hpix.trans hs.bound

theorem State.dstByte_scrambleDst_beyond (s : State) {a : Nat} (ha : s.cap.toNat ≤ a) :
    s.scrambleDst.dstByte a = s.dstByte a := by
  have hout : a < 0 ∨ 0 + (freeBytes s.freeCtr s.dstWindow).length ≤ a := by
    rw [freeBytes_length, State.dstWindow]
    omega
  simp [State.dstByte, Memory.lookup_writeAll_outside _ _ _ _ hout]

/-- Bytes appended below `cap` leave those at or past it alone. -/
theorem State.dstByte_append_beyond {bs : List Byte} (room : s.out + bs.length ≤ s.cap.toNat)
    {a : Nat} (ha : s.cap.toNat ≤ a) : (s.append bs).dstByte a = s.dstByte a :=
  s.dstByte_append_outside bs a (.inr (room.trans ha))

/-- Where a phase has established what it must, the engine's step writes below `cap` only. -/
theorem EngineStep.dstByte_beyond (hs : s.PhaseOk P) (h : EngineStep P s t) {a : Nat}
    (ha : s.cap.toNat ≤ a) : t.dstByte a = s.dstByte a := by
  cases h with
  | idle | eCheck | ePixelsDone | dCheck | dHeader | dDone => rfl
  | fail => exact s.dstByte_scrambleDst_beyond ha
  | eHeader hp =>
    obtain ⟨args, -, hout, -⟩ := (State.phaseOk_eHeader hp).1 hs
    exact State.dstByte_append_beyond (args.headerRoom hout) ha
  | ePixel hp hi =>
    have enc := (State.phaseOk_ePixels hp).1 hs
    exact State.dstByte_append_beyond (enc.pixelRoom hi) ha
  | eFlush hp =>
    obtain ⟨enc, -⟩ := (State.phaseOk_eFlush hp).1 hs
    exact State.dstByte_append_beyond enc.flushRoom ha
  | eTrailer hp =>
    obtain ⟨args, -, hout⟩ := (State.phaseOk_eTrailer hp).1 hs
    exact State.dstByte_append_beyond (args.trailerRoom hout) ha
  | dRepeat hp hi =>
    have room := ((State.phaseOk_dPixels hp).1 hs).pixelRoom hi
    exact State.dstByte_append_beyond (by simpa using room) ha
  | dChunk hp hi hr i =>
    have room := ((State.phaseOk_dPixels hp).1 hs).pixelRoom hi
    obtain ⟨p, q, rr, ca, hc⟩ := afterChunk_frame P i s
    rw [hc]
    exact State.dstByte_append_beyond (by simpa using room) ha

end

/-- Settles O46: the engine leaves DST at and past `cap` alone. -/
theorem dstBeyondCapKept : Obligations.DstBeyondCapKept :=
  fun _ _ hs h _ ha => (engineStep_cases h).dstByte_beyond hs.phase ha

/-! ## The engine stays inside the memories (rules R61, R68, R246) -/

theorem emitPixel_room {s : State} (h : s.out + pixelStride s.cEff ≤ s.dst.size) :
    emitPixel s = .next s.emitted := (emitPixel_next_iff s _).2 ⟨h, rfl⟩

theorem emitPixel_noRoom {s : State} (h : ¬ s.out + pixelStride s.cEff ≤ s.dst.size) :
    emitPixel s = .fault .engineWriteOutside :=
  push_noRoom _ { s with i := s.i + 1 } (by simpa using h)

theorem hasRoom_iff (s : State) : HasRoom s ↔ s.out + pixelStride s.cEff ≤ s.dst.size := Iff.rfl

/-- Settles O38: a chunk leaves `out`, `c_eff` and DST to the emission of its pixel, which stops. -/
theorem chunkWithoutRoomFaults : Obligations.ChunkWithoutRoomFaults := by
  intro i s hi hroom
  rw [exec_chunk i s hi]
  exact emitPixel_noRoom (by simpa [hasRoom_iff] using hroom)

/-- A chunk's bytes are read below `total` only, so inside SRC when `total` is. -/
theorem fetchChunk_ne_outside {s : State} (h : s.total.toNat ≤ s.src.size) :
    fetchChunk s ≠ .outside := by
  have hlen : s.chunkAt.length ≤ s.total.toNat - s.pos := by
    rw [State.chunkAt, State.srcBytes_length]
    exact Nat.min_le_right _ _
  unfold fetchChunk
  split
  · simp
  · rw [if_neg (by omega)]
    split <;> simp

section
variable {P : Config.Params} {s : State}

/-- A pixel that is left to encode lies inside SRC (`20_memory.md` rule R61). -/
theorem State.EncodeOk.pixelInSrc (hs : s.EncodeOk P) (hi : s.i < s.pixels) :
    (s.i + 1) * pixelStride s.CH ≤ s.src.size := by
  rw [pixelStride_eq_toNat (channels_of_validDesc hs.desc)]
  calc (s.i + 1) * s.CH.toNat
    _ ≤ s.pixels * s.CH.toNat := Nat.mul_le_mul_right _ hi
    _ ≤ s.total.toNat := hs.source
    _ ≤ s.src.size := hs.srcSize

theorem State.EncoderOk.ePixels_answers (hs : s.EncoderOk P) : ∃ t, ePixels P s = .next t := by
  unfold ePixels
  split
  · rename_i hi
    unfold encodeStep
    rw [if_pos (hs.args.pixelInSrc hi)]
    exact ⟨_, push_room _ _ ((hs.pixelRoom hi).trans hs.args.dstSize)⟩
  · exact ⟨_, rfl⟩

theorem dHeader_answers (hsrc : s.total.toNat ≤ s.src.size) : ∃ t, dHeader P s = .next t := by
  unfold dHeader
  split
  · exact ⟨_, rfl⟩
  · rw [if_neg (by unfold headerSize; omega)]
    split
    · exact ⟨_, rfl⟩
    · split <;> exact ⟨_, rfl⟩

theorem State.DecoderOk.runChunk_answers (hs : s.DecoderOk P) (hi : s.i < s.pixels) :
    ∃ t, runChunk (execWith P) s = .next t := by
  have room := (hs.pixelRoom hi).trans hs.dstSize
  unfold runChunk
  cases hf : fetchChunk s with
  | chunk i =>
    simp only
    rw [execWith_chunk P i s (fetchChunk_isChunk_wellFormed hf).1]
    exact ⟨_, emitPixel_room (by simpa using room)⟩
  | truncated => exact ⟨_, rfl⟩
  | outside => exact absurd hf (fetchChunk_ne_outside hs.srcSize)

theorem State.DecoderOk.dPixels_answers (hs : s.DecoderOk P) :
    ∃ t, dPixels (execWith P) s = .next t := by
  unfold dPixels
  split
  · rename_i hi
    split
    · exact ⟨_, emitPixel_room ((hs.pixelRoom hi).trans hs.dstSize)⟩
    · exact hs.runChunk_answers hi
  · exact ⟨_, rfl⟩

/-- Where a phase has established what it must, the engine answers a next state. -/
theorem State.PhaseOk.engine_answers (hs : s.PhaseOk P) :
    ∃ t, engineStepWith P (execWith P) s = .next t := by
  unfold engineStepWith
  cases hp : s.phase
  case idle | eCheck | dCheck => exact ⟨_, rfl⟩
  case eHeader =>
    obtain ⟨args, -, hout, -⟩ := (State.phaseOk_eHeader hp).1 hs
    exact ⟨_, push_room _ _ ((args.headerRoom hout).trans args.dstSize)⟩
  case ePixels => exact ((State.phaseOk_ePixels hp).1 hs).ePixels_answers
  case eFlush =>
    obtain ⟨enc, -⟩ := (State.phaseOk_eFlush hp).1 hs
    exact ⟨_, push_room _ _ (enc.flushRoom.trans enc.args.dstSize)⟩
  case eTrailer =>
    obtain ⟨args, -, hout⟩ := (State.phaseOk_eTrailer hp).1 hs
    exact ⟨_, (eTrailer_next_iff s _).2 ⟨(args.trailerRoom hout).trans args.dstSize, rfl⟩⟩
  case dHeader =>
    obtain ⟨-, hsrc, -⟩ := (State.phaseOk_dHeader hp).1 hs
    exact dHeader_answers hsrc
  case dPixels => exact ((State.phaseOk_dPixels hp).1 hs).dPixels_answers

end

/-- Settles O56: the invariant gives each phase room in DST for what it writes, and its reads lie
inside SRC. -/
theorem engineNeverStops : Obligations.EngineNeverStops := by
  intro s hs
  rw [engineStep, ← execWith_block]
  exact hs.phase.engine_answers

/-! ## The host's accesses (rules R60, R67, R350) -/

section
variable {s : State}

/-- A write of a SRC byte changes that byte only. -/
theorem State.srcByte_write (s : State) (a b : Nat) (v : Byte) :
    ({ s with src := s.src.write a v } : State).srcByte b = if b = a then v else s.srcByte b := by
  unfold State.srcByte
  rw [Memory.lookup_write]
  split <;> rfl

/-- A write of a DST byte changes that byte only. -/
theorem State.dstByte_write (s : State) (a b : Nat) (v : Byte) :
    ({ s with dst := s.dst.write a v } : State).dstByte b = if b = a then v else s.dstByte b := by
  unfold State.dstByte
  rw [Memory.lookup_write]
  split <;> rfl

theorem hostMove_srcWrite {a : Nat} (v : Byte) (hb : Status.busy s.status = false)
    (ha : a < s.src.size) :
    hostMove (.srcWrite a v) s = .next { s with src := s.src.write a v } := by
  simp [hostMove, hostMoveWith, hb, ha]

theorem hostMove_dstWrite {a : Nat} (v : Byte) (hb : Status.busy s.status = false)
    (ha : a < s.dst.size) :
    hostMove (.dstWrite a v) s = .next { s with dst := s.dst.write a v } := by
  simp [hostMove, hostMoveWith, hb, ha]

/-- While BUSY = 1 the host writes neither memory. -/
theorem hostMove_write_busy (a : Nat) (v : Byte) (hb : Status.busy s.status = true) :
    hostMove (.srcWrite a v) s = .refused .hostWriteWhileBusy ∧
      hostMove (.dstWrite a v) s = .refused .hostWriteWhileBusy :=
  ⟨if_pos hb, if_pos hb⟩

theorem hostMove_srcRead {a : Nat} (ha : a < s.src.size) :
    hostMove (.srcRead a) s = .next (readSrc a s) := if_pos ha

theorem hostMove_dstRead {a : Nat} (ha : a < s.dst.size) :
    hostMove (.dstRead a) s = .next (readDst a s) := if_pos ha

/-- What the host reads of a DST byte: the byte, with no draw, when nothing runs. -/
theorem readDst_value (s : State) (a : Nat) : ∃ (v : Byte) (n : Nat),
    readDst a s = { s with hostRead := v.setWidth 64, freeCtr := n } ∧
      (Status.busy s.status = false → v = s.dstByte a ∧ n = s.freeCtr) := by
  unfold readDst
  split
  · rename_i hb
    exact ⟨_, _, rfl, fun hf => absurd hb (by simp [hf])⟩
  · exact ⟨_, _, rfl, fun _ => ⟨rfl, rfl⟩⟩

end

/-- Settles O49: the host's accesses to both memories, one part per move. -/
theorem hostMemoryAccess : Obligations.HostMemoryAccess := by
  have idle {s : State} (h : s.status.toNat % 2 = 0) : Status.busy s.status = false := by
    simp [Status.busy_eq, h]
  refine ⟨fun s a v hb ha => ?_, fun s a v hb ha => ?_, fun s a v hb => ?_, fun s a ha => ?_,
    fun s a ha => ?_⟩
  · refine ⟨_, hostMove_srcWrite v (idle hb) ha, rfl, rfl, ?_, fun b hne => ?_⟩
    · rw [State.srcByte_write, if_pos rfl]
    · rw [State.srcByte_write, if_neg hne]
  · refine ⟨_, hostMove_dstWrite v (idle hb) ha, rfl, rfl, ?_, fun b hne => ?_⟩
    · rw [State.dstByte_write, if_pos rfl]
    · rw [State.dstByte_write, if_neg hne]
  · exact hostMove_write_busy a v (by rw [Status.busy_eq, decide_eq_true hb])
  · exact hostMove_srcRead ha
  · obtain ⟨v, n, hr, hv⟩ := readDst_value s a
    exact ⟨v, n, by rw [hostMove_dstRead ha, hr], fun hb => hv (idle hb)⟩

end Sys2Proof.Machine
end

/-! # Proofs: the encoding of the instructions (`30_encoding.md`)

A tag's fields and the encoder's bytes as numbers, what `decodeChunk` answers for each kind of tag, and
what bytes each kind is read from. Decoding then undoes encoding and conversely, field by field. -/

section
namespace Sys2Proof

/-! ## Fields of a byte as numbers (rules R104, R105) -/

theorem bitField_eq (lo n : Nat) (v : Byte) : bitField lo n v = v.toNat / 2 ^ lo % 2 ^ n := by
  rw [bitField, BitVec.extractLsb'_toNat, Nat.shiftRight_eq_div_pow]

theorem biased_eq (lo n bias : Nat) (v : Byte) :
    biased lo n bias v = (v.toNat / 2 ^ lo % 2 ^ n : Nat) - (bias : Int) := by
  rw [biased, bitField_eq]

theorem tagSlot_val (tag : Byte) : (tagSlot tag).val = tag.toNat % 64 := by
  change bitField 0 6 tag = _
  rw [bitField_eq]
  omega

/-- The top two bits of a tag are its quarter of the byte range (rule R100). -/
theorem bitField_top_eq (tag : Byte) : bitField 6 2 tag = tag.toNat / 64 := by
  have hb : tag.toNat < 256 := tag.isLt
  rw [bitField_eq]
  omega

theorem ne_literalTags {tag : Byte} (h : bitField 6 2 tag ≠ 3) : tag ≠ 0xFE ∧ tag ≠ 0xFF :=
  ⟨fun e => h (e ▸ bitField_literalTags.1), fun e => h (e ▸ bitField_literalTags.2)⟩

theorem toNat_unbiased {bias d : Int} (h0 : 0 ≤ d + bias) (h : d + bias < 256) :
    ((unbiased bias d).toNat : Int) = d + bias := by
  rw [unbiased, BitVec.toNat_ofInt]
  omega

/-- A field put below bits that are clear there adds to them. -/
theorem toNat_or_field {hi lo : Byte} {a b : Nat} (n : Nat) (hhi : hi.toNat = a) (hlo : lo.toNat = b)
    (ha : 2 ^ n ∣ a) (hb : b < 2 ^ n) : (hi ||| lo).toNat = a + b := by
  obtain ⟨k, rfl⟩ := ha
  rw [BitVec.toNat_or, hhi, hlo, Nat.two_pow_add_eq_or_of_lt hb]

theorem toNat_shiftLeft_field {x : Byte} {n : Nat} (h : x.toNat * 2 ^ n < 256) :
    (x <<< n).toNat = x.toNat * 2 ^ n := by
  rw [BitVec.toNat_shiftLeft, Nat.shiftLeft_eq, Nat.mod_eq_of_lt h]

/-! ## The operand ranges (rule R106) -/

theorem wellFormed_diff_iff (dr dg db : Int) : (Instr.diff dr dg db).wellFormed = true ↔
    (-2 ≤ dr ∧ dr ≤ 1) ∧ (-2 ≤ dg ∧ dg ≤ 1) ∧ (-2 ≤ db ∧ db ≤ 1) := by
  simp only [Instr.wellFormed, Bool.and_eq_true, decide_eq_true_eq, and_assoc]

theorem wellFormed_luma_iff (dg drg dbg : Int) : (Instr.luma dg drg dbg).wellFormed = true ↔
    (-32 ≤ dg ∧ dg ≤ 31) ∧ (-8 ≤ drg ∧ drg ≤ 7) ∧ (-8 ≤ dbg ∧ dbg ≤ 7) := by
  simp only [Instr.wellFormed, Bool.and_eq_true, decide_eq_true_eq, and_assoc]

theorem wellFormed_run_iff (n : Nat) : (Instr.run n).wellFormed = true ↔ 1 ≤ n ∧ n ≤ 62 :=
  decide_eq_true_iff

/-! ## The encoder's bytes as numbers (rules R94 to R97) -/

theorem encode_index_eq (k : Slot) : ∃ tag, encode (.index k) = [tag] ∧ tag.toNat = k.val := by
  refine ⟨_, rfl, ?_⟩
  rw [BitVec.toNat_ofNat]
  omega

theorem encode_diff_eq {dr dg db : Int} (h : (Instr.diff dr dg db).wellFormed = true) :
    ∃ tag, encode (.diff dr dg db) = [tag] ∧
      (tag.toNat : Int) = 64 + 16 * (dr + 2) + 4 * (dg + 2) + (db + 2) := by
  obtain ⟨hr, hg, hb⟩ := (wellFormed_diff_iff _ _ _).1 h
  have ur := toNat_unbiased (bias := 2) (d := dr) (by omega) (by omega)
  have ug := toNat_unbiased (bias := 2) (d := dg) (by omega) (by omega)
  have ub := toNat_unbiased (bias := 2) (d := db) (by omega) (by omega)
  have sr := toNat_shiftLeft_field (x := unbiased 2 dr) (n := 4) (by omega)
  have sg := toNat_shiftLeft_field (x := unbiased 2 dg) (n := 2) (by omega)
  have red := toNat_or_field (hi := 0x40) (a := 64) 6 rfl sr (by decide) (by omega)
  have green := toNat_or_field 4 red sg (by omega) (by omega)
  have blue := toNat_or_field 2 green (lo := unbiased 2 db) rfl (by omega) (by omega)
  exact ⟨_, rfl, (congrArg Nat.cast blue).trans (by omega)⟩

theorem encode_luma_eq {dg drg dbg : Int} (h : (Instr.luma dg drg dbg).wellFormed = true) :
    ∃ tag b2, encode (.luma dg drg dbg) = [tag, b2] ∧ (tag.toNat : Int) = 128 + (dg + 32) ∧
      (b2.toNat : Int) = 16 * (drg + 8) + (dbg + 8) := by
  obtain ⟨hg, hr, hb⟩ := (wellFormed_luma_iff _ _ _).1 h
  have ug := toNat_unbiased (bias := 32) (d := dg) (by omega) (by omega)
  have ur := toNat_unbiased (bias := 8) (d := drg) (by omega) (by omega)
  have ub := toNat_unbiased (bias := 8) (d := dbg) (by omega) (by omega)
  have sr := toNat_shiftLeft_field (x := unbiased 8 drg) (n := 4) (by omega)
  have green := toNat_or_field (hi := 0x80) (a := 128) (lo := unbiased 32 dg) 6 rfl rfl
    (by decide) (by omega)
  have steps := toNat_or_field 4 sr (lo := unbiased 8 dbg) rfl (by omega) (by omega)
  exact ⟨_, _, rfl, by omega, by omega⟩

theorem encode_run_eq {n : Nat} (h : (Instr.run n).wellFormed = true) :
    ∃ tag, encode (.run n) = [tag] ∧ tag.toNat = 191 + n := by
  obtain ⟨hlow, hhigh⟩ := (wellFormed_run_iff n).1 h
  have length : (BitVec.ofNat 8 (n - 1)).toNat = n - 1 := by
    rw [BitVec.toNat_ofNat]
    omega
  have run := toNat_or_field (hi := 0xC0) (a := 192) 6 rfl length (by decide) (by omega)
  exact ⟨_, rfl, by omega⟩

/-! ## What each kind of tag decodes to (rule R100) -/

section
variable {tag : Byte}

theorem decodeChunk_rgb (r g b : Byte) (rest : List Byte) :
    decodeChunk (0xFE :: r :: g :: b :: rest) = .ok (.rgb r g b, rest) := rfl

theorem decodeChunk_rgba (r g b a : Byte) (rest : List Byte) :
    decodeChunk (0xFF :: r :: g :: b :: a :: rest) = .ok (.rgba r g b a, rest) := rfl

theorem decodeChunk_index (h : bitField 6 2 tag = 0) (rest : List Byte) :
    decodeChunk (tag :: rest) = .ok (.index (tagSlot tag), rest) := by
  obtain ⟨hFE, hFF⟩ := ne_literalTags (tag := tag) (by omega)
  exact (if_neg hFE).trans <| (if_neg hFF).trans <| if_pos h

theorem decodeChunk_diff (h : bitField 6 2 tag = 1) (rest : List Byte) :
    decodeChunk (tag :: rest) =
      .ok (.diff (biased 4 2 2 tag) (biased 2 2 2 tag) (biased 0 2 2 tag), rest) := by
  obtain ⟨hFE, hFF⟩ := ne_literalTags (tag := tag) (by omega)
  exact (if_neg hFE).trans <| (if_neg hFF).trans <| (if_neg (by omega)).trans <| if_pos h

theorem decodeChunk_luma (h : bitField 6 2 tag = 2) (b2 : Byte) (rest : List Byte) :
    decodeChunk (tag :: b2 :: rest) =
      .ok (.luma (biased 0 6 32 tag) (biased 4 4 8 b2) (biased 0 4 8 b2), rest) := by
  obtain ⟨hFE, hFF⟩ := ne_literalTags (tag := tag) (by omega)
  exact (if_neg hFE).trans <| (if_neg hFF).trans <| (if_neg (by omega)).trans <|
    (if_neg (by omega)).trans <| if_pos h

theorem decodeChunk_luma_nil (h : bitField 6 2 tag = 2) :
    decodeChunk [tag] = .error (.missingOperand "LUMA") := by
  obtain ⟨hFE, hFF⟩ := ne_literalTags (tag := tag) (by omega)
  exact (if_neg hFE).trans <| (if_neg hFF).trans <| (if_neg (by omega)).trans <|
    (if_neg (by omega)).trans <| if_pos h

theorem decodeChunk_run (h : bitField 6 2 tag = 3) (hFE : tag ≠ 0xFE) (hFF : tag ≠ 0xFF)
    (rest : List Byte) : decodeChunk (tag :: rest) = .ok (.run (bitField 0 6 tag + 1), rest) :=
  (if_neg hFE).trans <| (if_neg hFF).trans <| (if_neg (by omega)).trans <|
    (if_neg (by omega)).trans <| if_neg (by omega)

/-- Every tag starts a chunk when four operand bytes follow it (rule R101). -/
theorem decodeChunk_total (tag r g b a : Byte) (o : List Byte) :
    ∃ i rest, decodeChunk (tag :: r :: g :: b :: a :: o) = .ok (i, rest) := by
  by_cases hFE : tag = 0xFE
  · exact ⟨_, _, hFE ▸ decodeChunk_rgb ..⟩
  by_cases hFF : tag = 0xFF
  · exact ⟨_, _, hFF ▸ decodeChunk_rgba ..⟩
  have top : bitField 6 2 tag < 4 := (tag.extractLsb' 6 2).isLt
  obtain h | h | h | h : bitField 6 2 tag = 0 ∨ bitField 6 2 tag = 1 ∨ bitField 6 2 tag = 2 ∨
      bitField 6 2 tag = 3 := by omega
  · exact ⟨_, _, decodeChunk_index h _⟩
  · exact ⟨_, _, decodeChunk_diff h _⟩
  · exact ⟨_, _, decodeChunk_luma h _ _⟩
  · exact ⟨_, _, decodeChunk_run h hFE hFF _⟩

end

/-! ## What bytes each kind is read from: `decodeChunk_cases`, one kind at a time -/

section
variable {tag : Byte} {o rest : List Byte}

theorem bytes_of_decodeChunk_rgb {r g b : Byte} (h : decodeChunk (tag :: o) = .ok (.rgb r g b, rest)) :
    tag = 0xFE ∧ o = r :: g :: b :: rest := by
  simpa using decodeChunk_cases tag o rest _ h

theorem bytes_of_decodeChunk_rgba {r g b a : Byte}
    (h : decodeChunk (tag :: o) = .ok (.rgba r g b a, rest)) :
    tag = 0xFF ∧ o = r :: g :: b :: a :: rest := by
  simpa using decodeChunk_cases tag o rest _ h

theorem bytes_of_decodeChunk_index {k : Slot} (h : decodeChunk (tag :: o) = .ok (.index k, rest)) :
    bitField 6 2 tag = 0 ∧ o = rest ∧ k = tagSlot tag := by
  simpa using decodeChunk_cases tag o rest _ h

theorem bytes_of_decodeChunk_diff {dr dg db : Int}
    (h : decodeChunk (tag :: o) = .ok (.diff dr dg db, rest)) :
    bitField 6 2 tag = 1 ∧ o = rest ∧
      dr = biased 4 2 2 tag ∧ dg = biased 2 2 2 tag ∧ db = biased 0 2 2 tag := by
  simpa using decodeChunk_cases tag o rest _ h

theorem bytes_of_decodeChunk_luma {dg drg dbg : Int}
    (h : decodeChunk (tag :: o) = .ok (.luma dg drg dbg, rest)) :
    bitField 6 2 tag = 2 ∧ ∃ b2, o = b2 :: rest ∧
      dg = biased 0 6 32 tag ∧ drg = biased 4 4 8 b2 ∧ dbg = biased 0 4 8 b2 := by
  simpa using decodeChunk_cases tag o rest _ h

theorem bytes_of_decodeChunk_run {n : Nat} (h : decodeChunk (tag :: o) = .ok (.run n, rest)) :
    bitField 6 2 tag = 3 ∧ o = rest ∧ n = bitField 0 6 tag + 1 := by
  obtain ⟨h3, -, -, ho, hn⟩ : bitField 6 2 tag = 3 ∧ tag ≠ 0xFE ∧ tag ≠ 0xFF ∧ o = rest ∧
      n = bitField 0 6 tag + 1 := by simpa using decodeChunk_cases tag o rest _ h
  exact ⟨h3, ho, hn⟩

end

/-! ## Encoding, then decoding -/

theorem decodeChunk_encode_index (k : Slot) (rest : List Byte) :
    decodeChunk (encode (.index k) ++ rest) = .ok (.index k, rest) := by
  obtain ⟨tag, he, ht⟩ := encode_index_eq k
  have hk : tagSlot tag = k := Fin.ext <| by
    rw [tagSlot_val]
    omega
  rw [he, List.singleton_append, decodeChunk_index (by rw [bitField_top_eq]; omega), hk]

theorem decodeChunk_encode_diff {dr dg db : Int} (h : (Instr.diff dr dg db).wellFormed = true)
    (rest : List Byte) :
    decodeChunk (encode (.diff dr dg db) ++ rest) = .ok (.diff dr dg db, rest) := by
  obtain ⟨hr, hg, hb⟩ := (wellFormed_diff_iff _ _ _).1 h
  obtain ⟨tag, he, ht⟩ := encode_diff_eq h
  have red : biased 4 2 2 tag = dr := by rw [biased_eq]; omega
  have green : biased 2 2 2 tag = dg := by rw [biased_eq]; omega
  have blue : biased 0 2 2 tag = db := by rw [biased_eq]; omega
  rw [he, List.singleton_append, decodeChunk_diff (by rw [bitField_top_eq]; omega), red, green, blue]

theorem decodeChunk_encode_luma {dg drg dbg : Int} (h : (Instr.luma dg drg dbg).wellFormed = true)
    (rest : List Byte) :
    decodeChunk (encode (.luma dg drg dbg) ++ rest) = .ok (.luma dg drg dbg, rest) := by
  obtain ⟨hg, hr, hb⟩ := (wellFormed_luma_iff _ _ _).1 h
  obtain ⟨tag, b2, he, ht, hb2⟩ := encode_luma_eq h
  have green : biased 0 6 32 tag = dg := by rw [biased_eq]; omega
  have red : biased 4 4 8 b2 = drg := by rw [biased_eq]; omega
  have blue : biased 0 4 8 b2 = dbg := by rw [biased_eq]; omega
  rw [he, List.cons_append, List.singleton_append,
    decodeChunk_luma (by rw [bitField_top_eq]; omega), green, red, blue]

/-- The two literal tags lie past every run length that has an encoding (rule R97). -/
theorem decodeChunk_encode_run {n : Nat} (h : (Instr.run n).wellFormed = true) (rest : List Byte) :
    decodeChunk (encode (.run n) ++ rest) = .ok (.run n, rest) := by
  obtain ⟨hlow, hhigh⟩ := (wellFormed_run_iff n).1 h
  obtain ⟨tag, he, ht⟩ := encode_run_eq h
  have length : bitField 0 6 tag + 1 = n := by rw [bitField_eq]; omega
  rw [he, List.singleton_append, decodeChunk_run (by rw [bitField_top_eq]; omega) (by bv_omega)
    (by bv_omega), length]

theorem decodeChunk_encode {i : Instr} (hc : i.isChunk = true) (hw : i.wellFormed = true)
    (rest : List Byte) : decodeChunk (encode i ++ rest) = .ok (i, rest) := by
  cases i with
  | rgb r g b => exact decodeChunk_rgb r g b rest
  | rgba r g b a => exact decodeChunk_rgba r g b a rest
  | index k => exact decodeChunk_encode_index k rest
  | diff => exact decodeChunk_encode_diff hw rest
  | luma => exact decodeChunk_encode_luma hw rest
  | run => exact decodeChunk_encode_run hw rest
  | encode | decode => cases hc

/-- A command's CMD byte decodes to it (`10_state.md` rule R23). -/
theorem decodeCommand_encode {i : Instr} (hc : i.isChunk = false) :
    ∃ op, encode i = [op] ∧ decodeCommand op = .ok i := by
  cases i with
  | rgb | rgba | index | diff | luma | run => cases hc
  | encode | decode => exact ⟨_, rfl, rfl⟩

/-- Settles O1: each kind's fields come back from its bytes. -/
theorem decodeEncodeAgree : Obligations.DecodeEncodeAgree :=
  fun _ hw => ⟨fun hc => decodeChunk_encode hc hw, decodeCommand_encode⟩

/-! ## Decoding, then encoding -/

/-- The encoder writes a decoded chunk as the bytes it was read from: their numbers agree. -/
theorem encode_of_decodeChunk {tag : Byte} {o rest : List Byte} {i : Instr}
    (h : decodeChunk (tag :: o) = .ok (i, rest)) : encode i ++ rest = tag :: o := by
  obtain ⟨hc, hw⟩ := Machine.decodeChunk_isChunk_wellFormed h
  cases i with
  | rgb =>
    obtain ⟨rfl, rfl⟩ := bytes_of_decodeChunk_rgb h
    rfl
  | rgba =>
    obtain ⟨rfl, rfl⟩ := bytes_of_decodeChunk_rgba h
    rfl
  | index k =>
    obtain ⟨top, rfl, rfl⟩ := bytes_of_decodeChunk_index h
    obtain ⟨tag', he, ht⟩ := encode_index_eq (tagSlot tag)
    rw [tagSlot_val] at ht
    rw [bitField_top_eq] at top
    have same : tag' = tag := BitVec.eq_of_toNat_eq (by omega)
    rw [he, same, List.singleton_append]
  | diff dr dg db =>
    obtain ⟨top, rfl, red, green, blue⟩ := bytes_of_decodeChunk_diff h
    obtain ⟨tag', he, ht⟩ := encode_diff_eq hw
    rw [biased_eq] at red green blue
    rw [bitField_top_eq] at top
    have same : tag' = tag := BitVec.eq_of_toNat_eq (by omega)
    rw [he, same, List.singleton_append]
  | luma dg drg dbg =>
    obtain ⟨top, b2, rfl, green, red, blue⟩ := bytes_of_decodeChunk_luma h
    obtain ⟨tag', b2', he, ht, hb2⟩ := encode_luma_eq hw
    rw [biased_eq] at green red blue
    rw [bitField_top_eq] at top
    have bound : b2.toNat < 256 := b2.isLt
    have same : tag' = tag := BitVec.eq_of_toNat_eq (by omega)
    have same2 : b2' = b2 := BitVec.eq_of_toNat_eq (by omega)
    rw [he, same, same2, List.cons_append, List.singleton_append]
  | run n =>
    obtain ⟨top, rfl, hn⟩ := bytes_of_decodeChunk_run h
    obtain ⟨tag', he, ht⟩ := encode_run_eq hw
    rw [bitField_eq] at hn
    rw [bitField_top_eq] at top
    have same : tag' = tag := BitVec.eq_of_toNat_eq (by omega)
    rw [he, same, List.singleton_append]
  | encode | decode => cases hc

/-- Settles O2: what is decoded is well-formed, and its fields give back the bytes. -/
theorem encodeDecodeAgree : Obligations.EncodeDecodeAgree := by
  intro bs i rest h
  obtain ⟨hc, hw⟩ := Machine.decodeChunk_isChunk_wellFormed h
  cases bs with
  | nil => cases h
  | cons tag o => exact ⟨hc, hw, encode_of_decodeChunk h⟩

/-! ## The length of a chunk (rule R103) -/

theorem encode_length_eq_chunkLength (i : Instr) : Laws.ChunkBytes.Statement i := by
  cases i with
  | rgb r g b => exact Laws.ChunkBytes.rgb r g b
  | rgba r g b a => exact Laws.ChunkBytes.rgba r g b a
  | index k => exact Laws.ChunkBytes.index k
  | diff dr dg db => exact Laws.ChunkBytes.diff dr dg db
  | luma dg drg dbg => exact Laws.ChunkBytes.luma dg drg dbg
  | run n => exact Laws.ChunkBytes.run n
  | encode => exact Laws.ChunkBytes.encode
  | decode => exact Laws.ChunkBytes.decode

/-- A decoded chunk is as long as its tag says. -/
theorem chunkLength_of_decodeChunk {tag : Byte} {o rest : List Byte} {i : Instr}
    (h : decodeChunk (tag :: o) = .ok (i, rest)) :
    chunkLength tag + rest.length = (tag :: o).length := by
  obtain ⟨-, hw⟩ := Machine.decodeChunk_isChunk_wellFormed h
  have bytes := encode_of_decodeChunk h
  obtain ⟨tag', operands, he, hlen⟩ := encode_length_eq_chunkLength i hw
  have same : tag' = tag := by
    rw [he] at bytes
    exact (List.cons.inj bytes).1
  rw [← bytes, List.length_append, hlen, same]

/-- Settles O3: a chunk's bytes are those the encoder writes for it, as many as its tag says. -/
theorem chunkLengthByTag : Obligations.ChunkLengthByTag := by
  refine ⟨fun bs i rest h => ?_, fun tag o o' rest rest' i i' h h' => ?_⟩
  · obtain ⟨hc, -, bytes⟩ := encodeDecodeAgree bs i rest h
    rw [← bytes, List.length_append, Nat.add_comm]
    cases i with
    | rgb | rgba | index | diff | luma | run => rfl
    | encode | decode => cases hc
  · have len := chunkLength_of_decodeChunk h
    have len' := chunkLength_of_decodeChunk h'
    rw [List.length_cons] at len len'
    omega

/-! ## The tag and the operands (rules R100, R101, R104) -/

/-- Settles O4: the tag's kind is that of its range, and it takes at most four operand bytes. -/
theorem tagDispatch : Obligations.TagDispatch := by
  refine ⟨fun tag operands hlen => ?_, fun tag o rest i h => ?_⟩
  · match operands, hlen with
    | r :: g :: b :: a :: o, _ =>
      obtain ⟨i, rest, h⟩ := decodeChunk_total tag r g b a o
      exact ⟨i, rest, h, (Machine.decodeChunk_isChunk_wellFormed h).1⟩
  refine ⟨?_, ?_, fun high => ?_, fun low high => ?_, fun low high => ?_, fun low high => ?_⟩
  · rintro rfl
    match o, h with
    | r :: g :: b :: o', h =>
      cases h
      exact ⟨r, g, b, rfl⟩
  · rintro rfl
    match o, h with
    | r :: g :: b :: a :: o', h =>
      cases h
      exact ⟨r, g, b, a, rfl⟩
  · rw [decodeChunk_index (by rw [bitField_top_eq]; omega)] at h
    cases h
    exact ⟨_, rfl⟩
  · rw [decodeChunk_diff (by rw [bitField_top_eq]; omega)] at h
    cases h
    exact ⟨_, _, _, rfl⟩
  · have top : bitField 6 2 tag = 2 := by rw [bitField_top_eq]; omega
    cases o with
    | nil =>
      rw [decodeChunk_luma_nil top] at h
      cases h
    | cons b2 o' =>
      rw [decodeChunk_luma top] at h
      cases h
      exact ⟨_, _, _, rfl⟩
  · rw [decodeChunk_run (by rw [bitField_top_eq]; omega) (by bv_omega) (by bv_omega)] at h
    cases h
    exact ⟨_, rfl⟩

/-- Settles O5: each kind's operands, from the bytes it is read from. -/
theorem operandAssembly : Obligations.OperandAssembly := by
  intro tag o rest i h
  refine ⟨?_, ?_, ?_, ?_, ?_, ?_⟩
  · rintro k rfl
    obtain ⟨-, -, rfl⟩ := bytes_of_decodeChunk_index h
    exact tagSlot_val tag
  · rintro dr dg db rfl
    obtain ⟨-, -, red, green, blue⟩ := bytes_of_decodeChunk_diff h
    rw [biased_eq] at red green blue
    omega
  · rintro dg drg dbg rfl
    obtain ⟨-, b2, ho, green, red, blue⟩ := bytes_of_decodeChunk_luma h
    have bound : b2.toNat < 256 := b2.isLt
    rw [biased_eq] at green red blue
    exact ⟨b2, ho, by omega, by omega, by omega⟩
  · rintro n rfl
    obtain ⟨-, -, hn⟩ := bytes_of_decodeChunk_run h
    rw [bitField_eq] at hn
    omega
  · rintro r g b rfl
    exact (bytes_of_decodeChunk_rgb h).2
  · rintro r g b a rfl
    exact (bytes_of_decodeChunk_rgba h).2

/-- Settles O6: the bytes are closed terms, which the decoder evaluates. -/
theorem knownWordsDecode : Obligations.KnownWordsDecode := by
  unfold Obligations.KnownWordsDecode
  decide

end Sys2Proof
end

/-! # Proofs: the color cache (`40_cache_hash.md`)

What a chunk leaves in the cache, with any parameters; the deltas of a chunk bring the decoder to the
encoder's pixel, so that both write the same slot; and a seed with which they do not. -/

section
namespace Sys2Proof.Machine

/-! ## Values of the default hash and seed (rules R131, R133) -/

/-- A slot of the default seed, for any hash. -/
theorem defaultSeed_getElem (hash : Pixel → Nat) (k : Slot) :
    (defaultSeed hash)[k] = if k = slotOf hash seedPixel then seedPixel else ⟨0, 0, 0, 0⟩ := by
  change (cachePut (Vector.replicate 64 ⟨0, 0, 0, 0⟩) (slotOf hash seedPixel) seedPixel)[k] = _
  split
  · rename_i h
    rw [h, cachePut_same]
  · rename_i h
    rw [cachePut_other _ _ _ _ h]
    simp

/-- Settles O11: the slots are computed, and the seed pixel's is 53. -/
theorem hashAndSeedValues : Obligations.HashAndSeedValues := by
  refine ⟨by decide, fun k => ?_⟩
  have hslot : slotOf defaultHash seedPixel = 53 := by decide
  rw [← hslot]
  exact defaultSeed_getElem defaultHash k

/-! ## What a chunk leaves in the cache (rules R136 to R139) -/

section
variable {P : Config.Params} {i : Instr} {s t : State}

@[simp] theorem State.emitted_px (s : State) : s.emitted.px = s.px := rfl
@[simp] theorem State.emitted_cache (s : State) : s.emitted.cache = s.cache := rfl
@[simp] theorem State.emitted_remainingRun (s : State) :
    s.emitted.remainingRun = s.remainingRun := rfl

/-- An answer to a chunk is its rule's state with the pixel emitted. -/
theorem eq_emitted_of_execWith (hc : i.isChunk = true) (h : execWith P i s = .next t) :
    t = (afterChunk P i s).emitted := by
  rw [execWith_chunk P i s hc, emitPixel_next_iff] at h
  exact h.2

theorem execWith_of_hasRoom (hc : i.isChunk = true) (room : HasRoom s) :
    execWith P i s = .next (afterChunk P i s).emitted := by
  rw [execWith_chunk P i s hc]
  exact emitPixel_room (by simpa [hasRoom_iff] using room)

theorem execWith_slotOk (hc : i.isChunk = true) (hs : SlotOk P s.cache)
    (h : execWith P i s = .next t) : SlotOk P t.cache := by
  rw [eq_emitted_of_execWith hc h, State.emitted_cache]
  exact afterChunk_slotOk i hs

/-- Every chunk but INDEX refreshes the slot of its pixel. -/
theorem afterChunk_held (hc : i.isChunk = true) (hi : ∀ k, i ≠ .index k) :
    (afterChunk P i s).cache[slot P (afterChunk P i s).px] = (afterChunk P i s).px := by
  cases i with
  | rgb | rgba | diff | luma | run => exact cachePut_same s.cache _ _
  | index k => exact absurd rfl (hi k)
  | encode | decode => cases hc

/-- After a chunk but INDEX the running pixel is in its slot; INDEX leaves the cache. -/
theorem execWith_cache (hc : i.isChunk = true) (h : execWith P i s = .next t) :
    ((∀ k, i ≠ .index k) → t.cache[slot P t.px] = t.px) ∧
      (∀ k, i = .index k → t.cache = s.cache) := by
  rw [eq_emitted_of_execWith hc h]
  refine ⟨afterChunk_held hc, ?_⟩
  rintro k rfl
  rfl

end

/-- Settles O12: the only writes put a pixel into its own slot. -/
theorem slotInvariant : Obligations.SlotInvariant := by
  refine ⟨fun P hseed => ?_, fun P ch px prev run ca => encodePixel_slotOk P ch px prev run ca,
    fun i s t hc hs h => ?_, fun P i s t => execWith_slotOk⟩
  · rw [hseed]
    exact slotOk_defaultSeed P
  · rw [← execWith_block] at h
    exact execWith_slotOk hc hs h

/-- Settles O13: the decoder refreshes the slot, the encoder fills it or finds it filled. -/
theorem cachePostCondition : Obligations.CachePostCondition := by
  refine ⟨fun i s t hc h => ?_, fun P i s t => execWith_cache, fun P hseed => ?_,
    fun P ch px prev run ca held => ?_⟩
  · rw [← execWith_block] at h
    exact execWith_cache hc h
  · simpa [hseed] using defaultSeed_held P
  · exact ⟨encodePixel_prev P ch px prev run ca, encodePixel_held P ch px prev run ca held⟩

/-! ## Deltas bring back the pixel (`41_delta_arith.md` rule R158)

Modulo 256 a delta is the difference of its channels, so adding it undoes the subtraction. -/

theorem wrap8_add (x y : Int) : wrap8 (x + y) = wrap8 x + wrap8 y := BitVec.ofInt_add x y

theorem wrap8_sub (x y : Int) : wrap8 (x - y) = wrap8 x - wrap8 y := by
  simp only [wrap8, Int.sub_eq_add_neg, BitVec.ofInt_add, BitVec.ofInt_neg, BitVec.sub_eq_add_neg]

@[simp] theorem wrap8_toNat (c : Byte) : wrap8 c.toNat = c := by simp [wrap8]

@[simp] theorem wrap8_s8 (x : Int) : wrap8 (s8 x) = wrap8 x := BitVec.ofInt_toInt

theorem addDelta_eq (c : Byte) (d : Int) : addDelta c d = c + wrap8 d := by
  rw [addDelta, wrap8_add, wrap8_toNat]

@[simp] theorem wrap8_channelDelta (cur old : Byte) :
    wrap8 (channelDelta cur old) = cur - old := by
  rw [channelDelta, wrap8_s8, wrap8_sub, wrap8_toNat, wrap8_toNat]

@[simp] theorem addDelta_channelDelta (cur old : Byte) :
    addDelta old (channelDelta cur old) = cur := by
  rw [addDelta_eq, wrap8_channelDelta, add_sub_cancel]

/-- The step of a channel sent relative to green is its own delta again. -/
@[simp] theorem addDelta_greenRelative (c : Byte) (d dg : Int) :
    addDelta c (dg + greenRelative d dg) = addDelta c d := by
  rw [addDelta_eq, addDelta_eq, wrap8_add, greenRelative, wrap8_s8, wrap8_sub, add_sub_cancel]

theorem applyDiff_channelDelta (px prev : Pixel) :
    applyDiff prev (channelDelta px.r prev.r) (channelDelta px.g prev.g) (channelDelta px.b prev.b) =
      ⟨px.r, px.g, px.b, prev.a⟩ := by
  simp [applyDiff]

theorem applyLuma_channelDelta (px prev : Pixel) :
    applyLuma prev (channelDelta px.g prev.g)
        (greenRelative (channelDelta px.r prev.r) (channelDelta px.g prev.g))
        (greenRelative (channelDelta px.b prev.b) (channelDelta px.g prev.g)) =
      ⟨px.r, px.g, px.b, prev.a⟩ := by
  simp [applyLuma]

/-! ## The decoder follows the encoder (rule R140) -/

/-- A pixel already in its slot is written there with no effect. -/
theorem cachePut_held {ca : Cache} {k : Slot} {p : Pixel} (h : ca[k] = p) :
    cachePut ca k p = ca := by
  subst h
  exact Vector.set_getElem_self k.isLt

theorem literalChunk_isChunk (CH : Byte) (px prev : Pixel) :
    (literalChunk CH px prev).isChunk = true := by
  unfold literalChunk
  dsimp only
  split_ifs <;> rfl

section
variable {P : Config.Params} {s : State}

/-- A literal gives the decoder the encoder's pixel, whatever its kind: alpha changes only in an
image of four channels, and is then sent. -/
theorem afterChunk_literalChunk {CH : Byte} {px : Pixel} (hCH : CH = 3 ∨ CH = 4)
    (halpha : CH = 3 → px.a = s.px.a) :
    ∃ n, afterChunk P (literalChunk CH px s.px) s = (s.took n px).refresh P := by
  unfold literalChunk
  dsimp only
  split
  · exact ⟨5, rfl⟩
  · rename_i hsame
    have ha : s.px.a = px.a := by
      obtain h3 | h4 := hCH
      · exact (halpha h3).symm
      · exact (not_not.1 fun hne => hsame ⟨h4, hne⟩).symm
    split
    · exact ⟨1, by rw [afterChunk, applyDiff_channelDelta, ha]⟩
    · split
      · exact ⟨2, by rw [afterChunk, applyLuma_channelDelta, ha]⟩
      · exact ⟨4, by rw [afterChunk, ha]⟩

/-- The one chunk of a changed pixel, with no run pending: INDEX of a slot that holds it, or a
literal that puts it there. -/
theorem afterChunk_of_encodePixel {CH : Byte} {px : Pixel} (hCH : CH = 3 ∨ CH = 4)
    (halpha : CH = 3 → px.a = s.px.a) (hne : px ≠ s.px) :
    ∃ i, (encodePixel P CH px s.px 0 s.cache).chunks = [i] ∧ i.isChunk = true ∧
      (afterChunk P i s).px = px ∧
      (afterChunk P i s).cache = (encodePixel P CH px s.px 0 s.cache).cache ∧
      (afterChunk P i s).remainingRun = s.remainingRun := by
  have noFlush : flushChunks P 0 s.px s.cache = [] := rfl
  obtain ⟨heq, -⟩ | ⟨heq, -⟩ | ⟨-, hhit, h⟩ | ⟨-, -, h⟩ :=
    encodePixel_cases P CH px s.px 0 s.cache
  · exact absurd heq hne
  · exact absurd heq hne
  · rw [h, noFlush]
    exact ⟨_, rfl, rfl, hhit, rfl, rfl⟩
  · obtain ⟨n, hafter⟩ := afterChunk_literalChunk (P := P) hCH halpha
    rw [h, noFlush]
    refine ⟨_, rfl, literalChunk_isChunk CH px s.px, ?_⟩
    rw [hafter]
    exact ⟨rfl, rfl, rfl⟩

/-- The one chunk of a flushed run repeats the pixel: INDEX of its slot emits it once, RUN leaves one
pixel less pending. -/
theorem afterChunk_of_flushChunks (held : s.cache[slot P s.px] = s.px) {run : BitVec 6}
    (hlow : 1 ≤ run.toNat) (hhigh : run.toNat ≤ 61) :
    ∃ i, flushChunks P run s.px s.cache = [i] ∧ i.isChunk = true ∧
      (afterChunk P i s).px = s.px ∧ (afterChunk P i s).cache = s.cache ∧
      ((afterChunk P i s).remainingRun.toNat + 1 = run.toNat ∨
        (run = 1 ∧ (afterChunk P i s).remainingRun = s.remainingRun)) := by
  obtain ⟨rfl, -⟩ | ⟨hone, -, -, h⟩ | ⟨-, -, h⟩ := flushChunks_cases P s.px s.cache hhigh
  · exact absurd hlow (by decide)
  · exact ⟨_, h, rfl, held, rfl, .inr ⟨hone, rfl⟩⟩
  · refine ⟨_, h, rfl, rfl, cachePut_held held, .inl ?_⟩
    change (BitVec.ofNat 6 (run.toNat - 1)).toNat + 1 = run.toNat
    rw [BitVec.toNat_ofNat]
    omega

end

/-- Settles O58: the chunk of a changed pixel, and that of a flushed run, each with its pixel
emitted. -/
theorem decoderFollowsEncoder : Obligations.DecoderFollowsEncoder := by
  intro P ch px s room held hch halpha
  refine ⟨fun hne => ?_, fun run hlow hhigh => ?_⟩
  · obtain ⟨i, hchunk, hc, hafter⟩ := afterChunk_of_encodePixel (P := P) hch halpha hne
    exact ⟨i, _, hchunk, execWith_of_hasRoom hc room, hafter⟩
  · obtain ⟨i, hchunk, hc, hafter⟩ := afterChunk_of_flushChunks held hlow hhigh
    exact ⟨i, _, hchunk, execWith_of_hasRoom hc room, hafter⟩

/-! ## A seed that breaks the round trip (rule R141)

`{0,0,0,255}` is `prev` before the first pixel, so a run of it is encoded with no write to the cache,
and the zero pixel hits its own slot of the all-zero seed. The decoder refreshes on RUN, and puts
`{0,0,0,255}` into that very slot when the hash does not tell the two apart. -/

/-- The default hash of the pixel made transparent, and the all-zero seed. -/
def zeroSeeded : Config.Params :=
  { block with
    hash := fun p => defaultHash { p with a := 0 }
    cacheSeed := Vector.replicate 64 ⟨0, 0, 0, 0⟩ }

/-- The three pixels in SRC, the arguments in the registers, ENCODE about to be written to CMD. -/
def zeroSeededEncode : State :=
  { State.reset with
    host := [.regWrite 0 1]
    inWidth := 3, inHeight := 1, inChannels := 4, srcLen := 12, dstCap := 37
    src := (Memory.blank 12).writeAll 0 [0, 0, 0, 255, 0, 0, 0, 255, 0, 0, 0, 0]
    dst := Memory.blank 37 }

/-- The stream that ENCODE writes: header, RUN(2), INDEX(0), trailer. -/
def zeroSeededStream : List Byte :=
  [0x71, 0x6F, 0x69, 0x66, 0, 0, 0, 3, 0, 0, 0, 1, 4, 0, 0xC1, 0x00, 0, 0, 0, 0, 0, 0, 0, 1]

/-- That ENCODE at its end. -/
def zeroSeededEncoded : State :=
  { zeroSeededEncode with
    host := [], status := 0x02, resultLen := 24
    prev := ⟨0, 0, 0, 0⟩, cache := zeroSeeded.cacheSeed, i := 3, out := 24
    total := 12, cap := 37, W := 3, Hgt := 1, CH := 4
    dst := (Memory.blank 37).writeAll 0 zeroSeededStream }

/-- The stream in SRC, DECODE about to be written to CMD. -/
def zeroSeededDecode : State :=
  { State.reset with
    host := [.regWrite 0 2]
    srcLen := 24, dstCap := 12
    src := (Memory.blank 24).writeAll 0 zeroSeededStream
    dst := Memory.blank 12 }

/-- That DECODE at its end: the third pixel is opaque. -/
def zeroSeededDecoded : State :=
  { zeroSeededDecode with
    host := [], status := 0x02, resultLen := 12
    outWidth := 3, outHeight := 1, outChannels := 4
    px := ⟨0, 0, 0, 255⟩
    cache := cachePut zeroSeeded.cacheSeed 0 ⟨0, 0, 0, 255⟩
    pos := 16, i := 3, out := 12
    total := 24, cap := 12, cEff := 4, W := 3, Hgt := 1, CH := 4
    dst := (Memory.blank 12).writeAll 0 [0, 0, 0, 255, 0, 0, 0, 255, 0, 0, 0, 255] }

theorem zeroSeeded_encode_run :
    (coreOf zeroSeeded).run 9 zeroSeededEncode = .next zeroSeededEncoded := rfl

theorem zeroSeeded_decode_run :
    (coreOf zeroSeeded).run 7 zeroSeededDecode = .next zeroSeededDecoded := rfl

/-- A hash of the colour alone does not see alpha. -/
theorem zeroSeeded_hash {p q : Pixel} (hr : p.r = q.r) (hg : p.g = q.g) (hb : p.b = q.b) :
    zeroSeeded.hash p = zeroSeeded.hash q := by
  simp only [zeroSeeded, defaultHash, hr, hg, hb]

/-- Settles O60: the two runs, and what the memories hold at their ends. -/
theorem zeroSeedBreaksRoundTrip : Obligations.ZeroSeedBreaksRoundTrip :=
  ⟨zeroSeeded, 0, zeroSeededEncode, zeroSeededEncoded, zeroSeededDecode, zeroSeededDecoded, 9, 7,
    rfl, fun _ _ => zeroSeeded_hash,
    -- the ENCODE before its CMD write, and at its end
    rfl, rfl, rfl, rfl, rfl, rfl, by decide,
    zeroSeeded_encode_run, rfl, rfl, rfl, by decide,
    -- the DECODE before its CMD write, and at its end
    rfl, rfl, rfl, rfl, rfl, by decide,
    zeroSeeded_decode_run, rfl, rfl, rfl, by decide, by decide, by decide⟩

end Sys2Proof.Machine
end

/-! # Proofs: the delta arithmetic (`41_delta_arith.md`)

`s8` gives the representative in -128..127 of its argument modulo 256, which fixes a channel's
difference. The tests for DIFF and LUMA are the operand ranges of those chunks, so what passes them
has an encoding, and every chunk the encoder emits is well-formed. -/

section
namespace Sys2Proof.Machine

/-! ## The difference of two channels (rules R9, R150) -/

/-- `s8` picks the one value in -128..127 that agrees with its argument modulo 256. -/
theorem s8_eq_iff (x d : Int) : s8 x = d ↔ -128 ≤ d ∧ d ≤ 127 ∧ d % 256 = x % 256 := by
  have hs8 : s8 x = x.bmod 256 := BitVec.toInt_ofInt x
  rw [hs8, Int.bmod_def]
  omega

/-- Settles O7: `s8` fixes the difference modulo 256, and a new byte is its own remainder. -/
theorem channelDeltaExact : Obligations.ChannelDeltaExact := by
  intro cur old d
  have hcur : cur.toNat < 256 := cur.isLt
  rw [channelDelta, s8_eq_iff]
  omega

/-! ## The tiers' tests are the chunks' operand ranges (rules R106, R152, R154) -/

theorem wellFormed_diff_eq_fitsDiff (dr dg db : Int) :
    (Instr.diff dr dg db).wellFormed = fitsDiff dr dg db := rfl

theorem wellFormed_luma_eq_fitsLuma (dr dg db : Int) :
    (Instr.luma dg (greenRelative dr dg) (greenRelative db dg)).wellFormed = fitsLuma dr dg db := rfl

/-- Settles O8: deltas that fit are operands with an encoding, and applying them undoes the
subtraction. -/
theorem deltaTiersLossless : Obligations.DeltaTiersLossless := by
  intro prev px dr dg db
  refine ⟨fun hfits => ⟨?_, applyDiff_channelDelta px prev⟩,
    fun hfits => ⟨?_, applyLuma_channelDelta px prev⟩⟩
  · rw [← wellFormed_diff_eq_fitsDiff] at hfits
    simpa using decodeChunk_encode_diff hfits []
  · rw [← wellFormed_luma_eq_fitsLuma] at hfits
    simpa using decodeChunk_encode_luma hfits []

/-! ## What the encoder emits is well-formed (rules R105, R106, R195) -/

/-- DIFF and LUMA are chosen only for deltas that pass their tests. -/
theorem literalChunk_wellFormed (CH : Byte) (px prev : Pixel) :
    (literalChunk CH px prev).wellFormed = true := by
  unfold literalChunk
  dsimp only
  split
  case isTrue => rfl
  case isFalse =>
    split
    case isTrue hdiff => exact hdiff
    case isFalse =>
      split
      case isTrue hluma => exact hluma
      case isFalse => rfl

/-- A flushed run has a length from 1 to 61. -/
theorem flushChunks_wellFormed (P : Config.Params) {run : BitVec 6} (prev : Pixel) (ca : Cache)
    (hrun : run.toNat ≤ 61) {c : Instr} (hc : c ∈ flushChunks P run prev ca) :
    c.isChunk = true ∧ c.wellFormed = true := by
  obtain ⟨-, h⟩ | ⟨-, -, -, h⟩ | ⟨hne, -, h⟩ := flushChunks_cases P prev ca hrun <;> rw [h] at hc
  · cases hc
  · rw [List.mem_singleton.1 hc]
    exact ⟨rfl, rfl⟩
  · rw [List.mem_singleton.1 hc]
    exact ⟨rfl, (wellFormed_run_iff _).2 ⟨by bv_omega, by omega⟩⟩

theorem encodePixel_wellFormed (P : Config.Params) (CH : Byte) (px prev : Pixel) {run : BitVec 6}
    (ca : Cache) (hrun : run.toNat ≤ 61) {c : Instr}
    (hc : c ∈ (encodePixel P CH px prev run ca).chunks) :
    c.isChunk = true ∧ c.wellFormed = true := by
  obtain ⟨-, -, h⟩ | ⟨-, -, h⟩ | ⟨-, -, h⟩ | ⟨-, -, h⟩ := encodePixel_cases P CH px prev run ca <;>
    rw [h] at hc
  · rw [List.mem_singleton.1 hc]
    exact ⟨rfl, rfl⟩
  · cases hc
  · obtain hflush | hindex := List.mem_append.1 hc
    · exact flushChunks_wellFormed P prev ca hrun hflush
    · rw [List.mem_singleton.1 hindex]
      exact ⟨rfl, rfl⟩
  · obtain hflush | hliteral := List.mem_append.1 hc
    · exact flushChunks_wellFormed P prev ca hrun hflush
    · rw [List.mem_singleton.1 hliteral]
      exact ⟨literalChunk_isChunk CH px prev, literalChunk_wellFormed CH px prev⟩

/-- Settles O17: the chunks of a step on a pixel, and those of a flush. -/
theorem emittedChunksWellFormed : Obligations.EmittedChunksWellFormed := by
  intro P ch px prev run ca hrun c hc
  obtain hstep | hflush := hc
  · exact encodePixel_wellFormed P ch px prev ca hrun hstep
  · exact flushChunks_wellFormed P prev ca hrun hflush

end Sys2Proof.Machine
end

/-! # Proofs: the header (`42_header_codec.md`)

The descriptor test bounds the pixel count. The header's fields are big-endian words, so a written
header reads back; E_HEADER writes its 14 bytes and D_HEADER parses the 14 bytes of SRC. -/

section
namespace Sys2Proof.Machine

/-! ## The descriptor test (rules R175, R176) -/

section
variable {P : Config.Params} {w h : Word32} {ch : Byte}

theorem pixels_lt_of_validDesc (hv : validDesc P w h ch = true) :
    w.toNat * h.toNat < P.pixelsMax := by
  obtain ⟨hw, -, -, hlt⟩ := (validDesc_iff P w h ch).1 hv
  calc w.toNat * h.toNat
    _ < w.toNat * (P.pixelsMax / w.toNat) := Nat.mul_lt_mul_of_pos_left hlt hw
    _ ≤ P.pixelsMax := Nat.mul_div_le _ _

/-- The test is strict and the height is at least 1, so twice the width still fits. -/
theorem two_mul_width_le_of_validDesc (hv : validDesc P w h ch = true) :
    2 * w.toNat ≤ P.pixelsMax := by
  obtain ⟨hw, hh, -, hlt⟩ := (validDesc_iff P w h ch).1 hv
  exact (Nat.le_div_iff_mul_le hw).1 (by omega)

end

/-- Settles O9: the pixel count is below the limit, and a pixel takes at most five bytes. -/
theorem descriptorTest : Obligations.DescriptorTest := by
  intro w h ch
  refine ⟨validDesc_iff block w h ch, fun hv => ?_⟩
  have hpixels : w.toNat * h.toNat < 400000000 := pixels_lt_of_validDesc hv
  have hwidth : 2 * w.toNat ≤ 400000000 := two_mul_width_le_of_validDesc hv
  refine ⟨hpixels, by omega, ?_⟩
  obtain rfl | rfl := channels_of_validDesc hv
  · change w.toNat * h.toNat * 4 + 22 < 2000000022
    omega
  · change w.toNat * h.toNat * 5 + 22 < 2000000022
    omega

/-! ## The header's bytes (rules R170 to R174) -/

/-- The bytes of a big-endian word as quotients of its value. -/
theorem be32_eq (v : Word32) : be32 v =
    [BitVec.ofNat 8 (v.toNat / 2 ^ 24), BitVec.ofNat 8 (v.toNat / 2 ^ 16),
      BitVec.ofNat 8 (v.toNat / 2 ^ 8), BitVec.ofNat 8 v.toNat] := by
  simp [be32, BitVec.extractLsb', Nat.shiftRight_eq_div_pow]

/-- Adjacent fields of a word join to the field that spans them. -/
theorem ofBe32_extractLsb' (v : Word32) :
    ofBe32 (v.extractLsb' 24 8) (v.extractLsb' 16 8) (v.extractLsb' 8 8) (v.extractLsb' 0 8) =
      v := by
  simp only [ofBe32, BitVec.extractLsb'_append_extractLsb'_eq_extractLsb']
  exact BitVec.extractLsb'_eq_self

@[simp] theorem headerBytes_length (w h : Word32) (ch cs : Byte) :
    (headerBytes w h ch cs).length = headerSize := rfl

theorem headerBytes_eq (w h : Word32) (ch cs : Byte) : headerBytes w h ch cs =
    [0x71, 0x6F, 0x69, 0x66,
      BitVec.ofNat 8 (w.toNat / 2 ^ 24), BitVec.ofNat 8 (w.toNat / 2 ^ 16),
      BitVec.ofNat 8 (w.toNat / 2 ^ 8), BitVec.ofNat 8 w.toNat,
      BitVec.ofNat 8 (h.toNat / 2 ^ 24), BitVec.ofNat 8 (h.toNat / 2 ^ 16),
      BitVec.ofNat 8 (h.toNat / 2 ^ 8), BitVec.ofNat 8 h.toNat, ch, cs] := by
  rw [headerBytes, be32_eq, be32_eq]
  rfl

theorem parseHeader_headerBytes {P : Config.Params} {w h : Word32} {ch : Byte} (cs : Byte)
    (hv : validDesc P w h ch = true) :
    parseHeader P (headerBytes w h ch cs) = some ⟨w, h, ch, cs⟩ := by
  simp only [headerBytes, be32, magic, List.cons_append, List.nil_append, parseHeader,
    ofBe32_extractLsb', hv, and_self, if_true]

/-- Settles O10: the two words read back, and the magic and the descriptor test pass. -/
theorem headerRoundTrip : Obligations.HeaderRoundTrip :=
  fun w h ch cs hv => ⟨headerBytes_length w h ch cs, parseHeader_headerBytes cs hv⟩

/-! ## Phase E_HEADER (rule R273) -/

/-- Appended bytes stand in DST at the old `out`, whatever else of the state has changed. -/
theorem dstWrote_append {s u : State} (hdst : u.dst = s.dst) (bs : List Byte) :
    DstWrote s (u.append bs) u.out bs := by
  have hbyte (b : Nat) : u.dstByte b = s.dstByte b := by rw [State.dstByte, hdst, State.dstByte]
  constructor
  case size => rw [State.append_dst, Memory.writeAll_size, hdst]
  case wrote => exact fun k hk => u.dstByte_append_inside bs k hk
  case before => exact fun b hb => (u.dstByte_append_outside bs b (.inl hb)).trans (hbyte b)
  case after => exact fun b hb => (u.dstByte_append_outside bs b (.inr hb)).trans (hbyte b)

/-- In phase E_HEADER a step is the engine's push of the header. -/
theorem step_eHeader {s : State} (hhost : s.host = []) (hphase : s.phase = .eHeader)
    (room : s.out + headerSize ≤ s.dst.size) :
    step s = .next (({ s with phase := .ePixels } : State).append
      (headerBytes s.W s.Hgt s.CH s.CS)) := by
  rw [step_engine s hhost, engineStep, engineStepWith, hphase]
  exact push_room _ _ room

/-- Settles O26: the header is appended at `out`, which is 0. -/
theorem encodeHeaderStep : Obligations.EncodeHeaderStep := by
  intro s hhost hphase hout hsize
  refine ⟨_, step_eHeader hhost hphase (by rw [hout]; exact hsize), ?_⟩
  have hwrote := dstWrote_append (s := s) (u := { s with phase := .ePixels }) rfl
    (headerBytes s.W s.Hgt s.CH s.CS)
  refine ⟨by simp [hout, headerSize], rfl, ?_, rfl, rfl, rfl, rfl, rfl, rfl, ?_⟩
  · rw [← headerBytes_eq]
    simpa only [hout] using hwrote
  · exact ⟨rfl, rfl, rfl, rfl, ⟨rfl, rfl, rfl, rfl, rfl, rfl⟩, ⟨rfl, rfl, rfl, rfl⟩,
      ⟨rfl, rfl, rfl, rfl, rfl, rfl, rfl, rfl⟩, ⟨rfl, rfl, rfl⟩⟩

/-! ## Phase D_HEADER (rule R282) -/

theorem failed_fail (s : State) (e : ErrKind) : Failed s (s.fail e) e := by
  constructor
  case inputs => exact ⟨rfl, rfl, rfl, rfl, rfl, rfl⟩
  case outputs => exact ⟨rfl, rfl, rfl, rfl⟩
  case dstSize => simp
  case dst => exact fun a ha => s.dstByte_scrambleDst_beyond ha
  all_goals rfl

/-- The descriptor in the header bytes at the start of SRC, valid or not (rule R172). -/
def State.srcDescriptor (s : State) : Descriptor where
  W := ofBe32 (s.srcByte 4) (s.srcByte 5) (s.srcByte 6) (s.srcByte 7)
  Hgt := ofBe32 (s.srcByte 8) (s.srcByte 9) (s.srcByte 10) (s.srcByte 11)
  CH := s.srcByte 12
  CS := s.srcByte 13

/-- SRC starts with the magic bytes. -/
abbrev State.SrcMagic (s : State) : Prop :=
  s.srcByte 0 = 0x71 ∧ s.srcByte 1 = 0x6F ∧ s.srcByte 2 = 0x69 ∧ s.srcByte 3 = 0x66

section
variable {P : Config.Params} {s : State}

theorem srcBytes_magic_iff :
    [s.srcByte 0, s.srcByte 1, s.srcByte 2, s.srcByte 3] = magic ↔ s.SrcMagic := by
  simp [magic, State.SrcMagic]

/-- The parse of SRC's first 14 bytes: the descriptor they hold, if both tests pass. -/
theorem parseHeader_srcBytes : parseHeader P (s.srcBytes 0 headerSize) =
    if s.SrcMagic ∧ validDesc P s.srcDescriptor.W s.srcDescriptor.Hgt s.srcDescriptor.CH = true then
      some s.srcDescriptor
    else none :=
  if_congr (and_congr_left' srcBytes_magic_iff) rfl rfl

theorem step_dHeader (hhost : s.host = []) (hphase : s.phase = .dHeader) :
    step s = dHeader block s := by
  rw [step_engine s hhost, engineStep, engineStepWith, hphase]

theorem dHeader_short (hshort : s.total.toNat < 22) :
    dHeader P s = .next (s.fail .formatError) := if_pos hshort

section
variable (henough : ¬ s.total.toNat < 22) (hsrc : s.total.toNat ≤ s.src.size)
include henough hsrc

theorem header_inside_src : ¬ s.src.size < headerSize := by
  unfold headerSize
  omega

theorem dHeader_rejected (hd : parseHeader P (s.srcBytes 0 headerSize) = none) :
    dHeader P s = .next (s.fail .formatError) := by
  rw [dHeader, if_neg henough, if_neg (header_inside_src henough hsrc), hd]

theorem dHeader_noRoom {d : Descriptor} (hd : parseHeader P (s.srcBytes 0 headerSize) = some d)
    (hcap : s.cap.toNat < d.W.toNat * d.Hgt.toNat * (effectiveChannels s.c d.CH).toNat) :
    dHeader P s = .next (s.fail .allocationFailure) := by
  rw [dHeader, if_neg henough, if_neg (header_inside_src henough hsrc), hd]
  exact if_pos hcap

theorem dHeader_accepted {d : Descriptor} (hd : parseHeader P (s.srcBytes 0 headerSize) = some d)
    (hcap : ¬ s.cap.toNat < d.W.toNat * d.Hgt.toNat * (effectiveChannels s.c d.CH).toNat) :
    dHeader P s = .next { (s.latchDescriptor d).seedDecoder P with phase := .dPixels } := by
  rw [dHeader, if_neg henough, if_neg (header_inside_src henough hsrc), hd]
  exact if_neg hcap

end
end

/-- Settles O30: one case per test, in the order of rule R282; `w`, `h` and `ch` are the fields of
`srcDescriptor`. -/
theorem decodeHeaderStep : Obligations.DecodeHeaderStep := by
  intro s hhost hphase hsrc w h ch ceff
  rw [step_dHeader hhost hphase]
  have hparse := parseHeader_srcBytes (P := block) (s := s)
  by_cases hshort : s.total.toNat < 22
  case pos =>
    refine ⟨_, dHeader_short hshort, ?_⟩
    rw [if_pos hshort]
    exact failed_fail s _
  simp only [if_neg hshort]
  by_cases hmagic : s.SrcMagic
  case neg =>
    rw [if_neg fun hok => hmagic hok.1] at hparse
    refine ⟨_, dHeader_rejected hshort hsrc hparse, ?_⟩
    rw [if_pos hmagic]
    exact failed_fail s _
  simp only [if_neg (not_not_intro hmagic)]
  obtain ⟨hdesc, -⟩ := descriptorTest w h ch
  by_cases hv : validDesc block w h ch = true
  case neg =>
    rw [if_neg fun hok => hv hok.2] at hparse
    refine ⟨_, dHeader_rejected hshort hsrc hparse, ?_⟩
    rw [if_pos ((not_congr hdesc).1 hv)]
    exact failed_fail s _
  simp only [if_neg (not_not_intro (hdesc.1 hv))]
  rw [if_pos ⟨hmagic, hv⟩] at hparse
  by_cases hcap : s.cap.toNat < w.toNat * h.toNat * ceff.toNat
  case pos =>
    refine ⟨_, dHeader_noRoom hshort hsrc hparse hcap, ?_⟩
    rw [if_pos hcap]
    exact failed_fail s _
  case neg =>
    refine ⟨_, dHeader_accepted hshort hsrc hparse hcap, ?_⟩
    rw [if_neg hcap]
    rfl

end Sys2Proof.Machine
end

/-! # Proofs: what the encoder emits (`43_encoder.md`)

Which chunks the encoder chooses and what bytes they are, and the steps of the machine in phases
E_PIXELS and E_FLUSH. -/

section
namespace Sys2Proof.Machine

/-! ## The chunk of a changed pixel (rules R197 to R201) -/

theorem fitsDiff_iff (dr dg db : Int) : fitsDiff dr dg db = true ↔
    (-2 ≤ dr ∧ dr ≤ 1) ∧ (-2 ≤ dg ∧ dg ≤ 1) ∧ (-2 ≤ db ∧ db ≤ 1) :=
  wellFormed_diff_iff dr dg db

theorem fitsLuma_iff (dr dg db : Int) : fitsLuma dr dg db = true ↔ (-32 ≤ dg ∧ dg ≤ 31) ∧
    (-8 ≤ greenRelative dr dg ∧ greenRelative dr dg ≤ 7) ∧
    (-8 ≤ greenRelative db dg ∧ greenRelative db dg ≤ 7) :=
  wellFormed_luma_iff dg (greenRelative dr dg) (greenRelative db dg)

/-- The first test that passes chooses the literal: changed alpha, small deltas, medium deltas. -/
theorem literalChunk_selected (CH : Byte) (px prev : Pixel) {dr dg db : Int}
    (hr : channelDelta px.r prev.r = dr) (hg : channelDelta px.g prev.g = dg)
    (hb : channelDelta px.b prev.b = db) :
    (CH = 4 ∧ px.a ≠ prev.a → literalChunk CH px prev = .rgba px.r px.g px.b px.a) ∧
    (¬ (CH = 4 ∧ px.a ≠ prev.a) →
      (fitsDiff dr dg db = true → literalChunk CH px prev = .diff dr dg db) ∧
      (¬ fitsDiff dr dg db = true → fitsLuma dr dg db = true →
        literalChunk CH px prev = .luma dg (greenRelative dr dg) (greenRelative db dg)) ∧
      (¬ fitsDiff dr dg db = true → ¬ fitsLuma dr dg db = true →
        literalChunk CH px prev = .rgb px.r px.g px.b)) := by
  simp only [literalChunk, hr, hg, hb]
  refine ⟨fun halpha => if_pos halpha, fun hsame => ?_⟩
  rw [if_neg hsame]
  refine ⟨fun hdiff => if_pos hdiff, fun hdiff hluma => ?_, fun hdiff hluma => ?_⟩
  · rw [if_neg hdiff, if_pos hluma]
  · rw [if_neg hdiff, if_neg hluma]

/-- Only an image of four channels has an RGBA chunk. -/
theorem literalChunk_ne_rgba {CH : Byte} (hCH : CH ≠ 4) (px prev : Pixel) (r g b a : Byte) :
    literalChunk CH px prev ≠ .rgba r g b a := by
  simp only [literalChunk, hCH, false_and, if_false]
  split_ifs <;> simp

/-- A literal is no run. -/
theorem literalChunk_ne_run (CH : Byte) (px prev : Pixel) (n : Nat) :
    literalChunk CH px prev ≠ .run n := by
  simp only [literalChunk]
  split_ifs <;> simp

/-! ## The chunks of a pixel and of a flush (rules R192, R195) -/

section
variable {P : Config.Params} {CH : Byte} {px prev : Pixel} {run : BitVec 6} {ca : Cache} {c : Instr}

/-- A flush emits runs, and INDEX by the tie-break. -/
theorem eq_run_or_index_of_mem_flushChunks (hc : c ∈ flushChunks P run prev ca) :
    (∃ n, c = .run n) ∨ c = .index (slot P prev) := by
  unfold flushChunks at hc
  obtain hfull | hrest := List.mem_append.1 hc
  · exact .inl ⟨62, List.eq_of_mem_replicate hfull⟩
  · split_ifs at hrest
    · exact .inr (List.mem_singleton.1 hrest)
    · exact .inl ⟨_, List.mem_singleton.1 hrest⟩
    · cases hrest

/-- A single pending pixel that the tie-break turns into INDEX is no run of one. -/
theorem run_one_notMem_flushChunks (htie : P.tieBreak = true) (held : ca[slot P prev] = prev)
    (hrun : run.toNat ≤ 61) : Instr.run 1 ∉ flushChunks P run prev ca := by
  intro hc
  obtain ⟨-, h⟩ | ⟨-, -, -, h⟩ | ⟨-, hother, h⟩ := flushChunks_cases P prev ca hrun <;> rw [h] at hc
  · cases hc
  · cases List.mem_singleton.1 hc
  · have hone : 1 = run.toNat := Instr.run.inj (List.mem_singleton.1 hc)
    exact hother ⟨BitVec.eq_of_toNat_eq hone.symm, htie, held⟩

/-- What a step on a pixel can emit: a full run, the flush, INDEX of the pixel, or a literal. -/
theorem mem_encodePixel_chunks (hc : c ∈ (encodePixel P CH px prev run ca).chunks) :
    c = .run 62 ∨ c ∈ flushChunks P run prev ca ∨ c = .index (slot P px) ∨
      c = literalChunk CH px prev := by
  obtain ⟨-, -, h⟩ | ⟨-, -, h⟩ | ⟨-, -, h⟩ | ⟨-, -, h⟩ := encodePixel_cases P CH px prev run ca <;>
    rw [h] at hc
  · exact .inl (List.mem_singleton.1 hc)
  · cases hc
  · obtain hflush | hindex := List.mem_append.1 hc
    · exact .inr (.inl hflush)
    · exact .inr (.inr (.inl (List.mem_singleton.1 hindex)))
  · obtain hflush | hliteral := List.mem_append.1 hc
    · exact .inr (.inl hflush)
    · exact .inr (.inr (.inr (List.mem_singleton.1 hliteral)))

/-- After a changed pixel no run is pending. -/
theorem encodePixel_run_of_ne (hne : px ≠ prev) : (encodePixel P CH px prev run ca).run = 0 := by
  obtain ⟨heq, -⟩ | ⟨heq, -⟩ | ⟨-, -, h⟩ | ⟨-, -, h⟩ := encodePixel_cases P CH px prev run ca
  · exact absurd heq hne
  · exact absurd heq hne
  · rw [h]
  · rw [h]

end

/-- The byte of a run: its tag plus its length less one (rule R97). -/
theorem encode_run_bytes {n : Nat} (h : (Instr.run n).wellFormed = true) :
    encode (.run n) = [BitVec.ofNat 8 (0xC0 + (n - 1))] := by
  obtain ⟨hlow, hhigh⟩ := (wellFormed_run_iff n).1 h
  obtain ⟨tag, hbytes, htag⟩ := encode_run_eq h
  rw [hbytes, List.singleton_inj]
  apply BitVec.eq_of_toNat_eq
  rw [htag, BitVec.toNat_ofNat]
  omega

/-- Settles O15: one case per kind of flush in `flushChunks_cases`. -/
theorem flushBytes : Obligations.FlushBytes := by
  intro P run prev ca hrun
  have hlast (ch : Byte) (px : Pixel) (hne : px ≠ prev) :
      (encodePixel P ch px prev run ca).run = 0 := encodePixel_run_of_ne hne
  obtain ⟨rfl, h⟩ | ⟨rfl, htie, held, h⟩ | ⟨hne, hother, h⟩ := flushChunks_cases P prev ca hrun <;>
    rw [h]
  · exact ⟨fun _ => rfl, fun hone => absurd hone (by decide), fun hpos => absurd hpos (by decide),
      hlast⟩
  · exact ⟨fun hzero => absurd hzero (by decide), fun _ _ _ => rfl,
      fun _ hnot => absurd ⟨rfl, htie, held⟩ hnot, hlast⟩
  · have hpos : 1 ≤ run.toNat := by bv_omega
    refine ⟨fun hzero => by omega, fun hone htie held => ?_, fun _ _ => ?_, hlast⟩
    · exact absurd ⟨BitVec.eq_of_toNat_eq hone, htie, held⟩ hother
    · rw [chunkBytes_singleton, encode_run_bytes ((wellFormed_run_iff _).2 ⟨hpos, by omega⟩)]

/-- Settles O16: the cases of `encodePixel_cases`; a literal is chosen as `literalChunk_selected`
says. -/
theorem selectionOrder : Obligations.SelectionOrder := by
  intro P ch px prev run ca e dr dg db small medium
  refine ⟨encodePixel_prev P ch px prev run ca, ?_⟩
  have hlit := literalChunk_selected ch px prev (dr := dr) (dg := dg) (db := db) rfl rfl rfl
  rw [fitsDiff_iff, fitsLuma_iff] at hlit
  obtain ⟨heq, hrun, h⟩ | ⟨heq, -, h⟩ | ⟨hne, hhit, h⟩ | ⟨hne, hmiss, h⟩ :=
    encodePixel_cases P ch px prev run ca <;> rw [show e = _ from h]
  · exact ⟨fun _ => ⟨rfl, .inr ⟨rfl, by bv_omega, rfl⟩⟩, fun hne => absurd heq hne⟩
  · exact ⟨fun _ => ⟨rfl, .inl ⟨rfl, rfl⟩⟩, fun hne => absurd heq hne⟩
  · exact ⟨fun heq => absurd heq hne, fun _ => ⟨rfl, _, rfl, fun _ => ⟨rfl, rfl⟩,
      fun hmiss => absurd hhit hmiss⟩⟩
  · exact ⟨fun heq => absurd heq hne, fun _ => ⟨rfl, _, rfl, fun hhit => absurd hhit hmiss,
      fun _ => ⟨rfl, hlit⟩⟩⟩

/-- Settles O18: three channels are not four, and the other chunks are no RGBA. -/
theorem noRgbaForThreeChannels : Obligations.NoRgbaForThreeChannels := by
  refine ⟨fun P px prev run ca r g b a hc => ?_, fun s => State.fetchPixel_alpha, rfl⟩
  obtain hfull | hflush | hindex | hliteral := mem_encodePixel_chunks hc
  · cases hfull
  · obtain ⟨n, h⟩ | h := eq_run_or_index_of_mem_flushChunks hflush <;> cases h
  · cases hindex
  · exact literalChunk_ne_rgba (by decide) px prev r g b a hliteral.symm

/-- Settles O19: the flush is the only source of a short run. -/
theorem neverRunOfOne : Obligations.NeverRunOfOne := by
  intro P ch px prev run ca htie held hrun
  have hflush := run_one_notMem_flushChunks htie held hrun
  refine ⟨fun hc => ?_, hflush⟩
  obtain hfull | hmem | hindex | hliteral := mem_encodePixel_chunks hc
  · cases hfull
  · exact hflush hmem
  · cases hindex
  · exact literalChunk_ne_run ch px prev 1 hliteral.symm

/-- Settles O20: the upper bound of `encodePixel_bytes`. -/
theorem pixelBytesBound : Obligations.PixelBytesBound :=
  fun P ch px prev run ca hch hrun => (encodePixel_bytes P ch px prev run ca hch hrun).2

/-- Settles O14: the two cases of `encodePixel_cases` in which the pixel is `prev`. -/
theorem repeatedPixelEncoding : Obligations.RepeatedPixelEncoding := by
  intro P ch px run ca
  obtain ⟨-, hfull, h⟩ | ⟨-, hopen, h⟩ | ⟨hne, -⟩ | ⟨hne, -⟩ :=
    encodePixel_cases P ch px px run ca
  · have h61 : run.toNat = 61 := by bv_omega
    rw [h]
    exact ⟨fun hlt => by omega, fun _ => ⟨rfl, rfl⟩, rfl, rfl⟩
  · rw [h]
    exact ⟨fun hlt => ⟨rfl, by bv_omega⟩, fun h61 => by bv_omega, rfl, rfl⟩
  · exact absurd rfl hne
  · exact absurd rfl hne

/-! ## Phases E_PIXELS and E_FLUSH (rules R274, R275) -/

section
variable (s : State) (phase : Phase) (prev : Pixel) (run : BitVec 6) (i : Nat) (cache : Cache)
  (bs : List Byte)

/-- Whatever the encoder's own registers become, the bytes it appends stand in DST at `out`. -/
theorem encoder_append_wrote :
    DstWrote s (({ s with phase, prev, run, i, cache } : State).append bs) s.out bs :=
  dstWrote_append (s := s) (u := { s with phase, prev, run, i, cache }) rfl bs

/-- An update of the encoder's own registers with bytes appended to DST leaves the rest alone. -/
theorem encoder_append_frame :
    EncoderFrame s (({ s with phase, prev, run, i, cache } : State).append bs) :=
  ⟨rfl, rfl, rfl, rfl, ⟨rfl, rfl, rfl, rfl, rfl, rfl⟩, ⟨rfl, rfl, rfl, rfl⟩,
    ⟨rfl, rfl, rfl, rfl, rfl, rfl, rfl, rfl⟩, ⟨rfl, rfl, rfl⟩⟩

end

section
variable {s : State}

/-- The fetched pixel by its bytes (rule R191). -/
theorem State.fetchPixel_eq (hCH : s.CH = 3 ∨ s.CH = 4) : s.fetchPixel =
    ⟨s.srcByte (s.i * s.CH.toNat), s.srcByte (s.i * s.CH.toNat + 1),
      s.srcByte (s.i * s.CH.toNat + 2),
      if s.CH = 4 then s.srcByte (s.i * s.CH.toNat + 3) else 255⟩ := by
  rw [State.fetchPixel, pixelStride_eq_toNat hCH]
  obtain h | h := hCH <;> rw [h] <;> rfl

theorem step_ePixels (hhost : s.host = []) (hphase : s.phase = .ePixels) :
    step s = ePixels block s := by
  rw [step_engine s hhost, engineStep, engineStepWith, hphase]

theorem ePixels_done (P : Config.Params) (hi : s.pixels ≤ s.i) :
    ePixels P s = .next { s with phase := .eFlush } := if_neg (Nat.not_lt.2 hi)

theorem ePixels_encoded {P : Config.Params} (hi : s.i < s.pixels)
    (hsrc : (s.i + 1) * pixelStride s.CH ≤ s.src.size)
    (room : s.out + (chunkBytes (s.encoded P).chunks).length ≤ s.dst.size) :
    ePixels P s = .next (s.pixelEncoded P) := by
  rw [ePixels, if_pos hi, encodeStep, if_pos hsrc]
  exact push_room _ _ room

theorem step_eFlush (hhost : s.host = []) (hphase : s.phase = .eFlush)
    (room : s.out + (chunkBytes (flushChunks block s.run s.prev s.cache)).length ≤ s.dst.size) :
    step s = .next (({ s with run := 0, phase := .eTrailer } : State).append
      (chunkBytes (flushChunks block s.run s.prev s.cache))) := by
  rw [step_engine s hhost, engineStep, engineStepWith, hphase]
  exact push_room _ _ room

end

/-- Settles O21: the next state is `State.pixelEncoded`. -/
theorem encodePixelStep : Obligations.EncodePixelStep := by
  intro s hhost hphase hi hCH hsrc px e room
  have he : e = s.encoded block := by
    rw [State.encoded, State.fetchPixel_eq hCH]
  rw [← pixelStride_eq_toNat hCH] at hsrc
  rw [he] at room ⊢
  refine ⟨_, (step_ePixels hhost hphase).trans (ePixels_encoded hi hsrc room), ?_⟩
  exact ⟨rfl, rfl, rfl, rfl, rfl, encoder_append_wrote s s.phase _ _ _ _ _, rfl, rfl, rfl,
    encoder_append_frame s s.phase _ _ _ _ _⟩

/-- Settles O27: E_PIXELS without a pixel left, and the flush appended at `out`. -/
theorem encodeFlushStep : Obligations.EncodeFlushStep := by
  intro s hhost
  refine ⟨fun hphase hi => (step_ePixels hhost hphase).trans (ePixels_done block hi),
    fun hphase room => ⟨_, step_eFlush hhost hphase room, ?_⟩⟩
  exact ⟨rfl, rfl, rfl, encoder_append_wrote s _ _ _ _ _ _, rfl, rfl, rfl, rfl, rfl,
    encoder_append_frame s _ _ _ _ _ _⟩

end Sys2Proof.Machine
end

/-! # Proofs: the decoder (`44_decoder.md`)

What a chunk leaves behind and what it leaves alone, how the next chunk is fetched, and the steps of
the machine in phase D_PIXELS. -/

section
namespace Sys2Proof.Machine

/-! ## An emitted pixel (rules R234, R246) -/

section
variable (s : State) (px : Pixel) (pos : Nat) (remainingRun : BitVec 6) (cache : Cache)

/-- Whatever the decoder's own registers become, the emitted pixel stands in DST at `out` and is
counted. -/
theorem decoder_emitted_wrote :
    Emitted s ({ s with px, pos, remainingRun, cache } : State).emitted px where
  i := rfl
  out := congrArg (s.out + ·) (pixelBytes_length s.cEff px)
  bytes := dstWrote_append (s := s)
    (u := { s with px, pos, remainingRun, cache, i := s.i + 1 }) rfl (pixelBytes s.cEff px)

/-- An update of the decoder's own registers with a pixel emitted leaves the rest alone. -/
theorem decoder_emitted_frame :
    ChunkFrame s ({ s with px, pos, remainingRun, cache } : State).emitted :=
  ⟨rfl, rfl, rfl, rfl, rfl, rfl, ⟨rfl, rfl, rfl, rfl, rfl, rfl⟩, ⟨rfl, rfl, rfl, rfl⟩,
    ⟨rfl, rfl, rfl, rfl, rfl, rfl, rfl, rfl⟩, ⟨rfl, rfl, rfl⟩⟩

end

/-! ## The chunks (rules R238 to R245) -/

section
variable {P : Config.Params} {i : Instr} {s : State}

/-- Every chunk emits the pixel its rule gives, and touches nothing else but the decoder's own
registers. -/
theorem afterChunk_emitted (P : Config.Params) (i : Instr) (s : State) :
    Emitted s (afterChunk P i s).emitted (afterChunk P i s).px ∧
      ChunkFrame s (afterChunk P i s).emitted := by
  obtain ⟨p, q, rr, ca, h⟩ := afterChunk_frame P i s
  rw [h]
  exact ⟨decoder_emitted_wrote s p q rr ca, decoder_emitted_frame s p q rr ca⟩

/-- Every chunk but INDEX writes its pixel's slot, and no other. -/
theorem afterChunk_refreshed (hc : i.isChunk = true) (hi : ∀ k, i ≠ .index k) :
    Refreshed P s (afterChunk P i s).emitted where
  held := afterChunk_held hc hi
  others := by
    cases i with
    | rgb | rgba | diff | luma | run => exact fun k hk => cachePut_other s.cache _ k _ hk
    | index k => exact absurd rfl (hi k)
    | encode | decode => cases hc

theorem exec_of_hasRoom (hc : i.isChunk = true) (room : HasRoom s) :
    exec i s = .next (afterChunk block i s).emitted := by
  rw [← execWith_block, execWith_of_hasRoom hc room]

/-- With room, a chunk but INDEX answers its rule's state with the pixel emitted and its slot
refreshed. -/
theorem exec_refreshing (hc : i.isChunk = true) (hi : ∀ k, i ≠ .index k) (room : HasRoom s) :
    exec i s = .next (afterChunk block i s).emitted ∧
      Refreshed block s (afterChunk block i s).emitted ∧
      Emitted s (afterChunk block i s).emitted (afterChunk block i s).px ∧
      ChunkFrame s (afterChunk block i s).emitted :=
  ⟨exec_of_hasRoom hc room, afterChunk_refreshed hc hi, afterChunk_emitted block i s⟩

end

/-- Settles O32: the literal with the old alpha. -/
theorem rgbDecoded : Obligations.RgbDecoded := by
  intro r g b s room
  obtain ⟨hexec, heffects⟩ := exec_refreshing (i := .rgb r g b) rfl (by simp) room
  exact ⟨_, hexec, rfl, rfl, rfl, heffects⟩

/-- Settles O33: the literal. -/
theorem rgbaDecoded : Obligations.RgbaDecoded := by
  intro r g b a s room
  obtain ⟨hexec, heffects⟩ := exec_refreshing (i := .rgba r g b a) rfl (by simp) room
  exact ⟨_, hexec, rfl, rfl, rfl, heffects⟩

/-- Settles O34: the rule of INDEX has no refresh. -/
theorem indexDecoded : Obligations.IndexDecoded :=
  fun k s room => ⟨_, exec_of_hasRoom (i := .index k) rfl room, rfl, rfl, rfl, rfl,
    afterChunk_emitted block (.index k) s⟩

theorem toNat_addDelta (c : Byte) (d : Int) :
    ((addDelta c d).toNat : Int) = (c.toNat + d) % 256 := by
  rw [addDelta, wrap8, BitVec.toNat_ofInt]
  omega

/-- Settles O35: `addDelta` on each colour channel. -/
theorem diffDecoded : Obligations.DiffDecoded := by
  intro dr dg db s room
  obtain ⟨hexec, heffects⟩ := exec_refreshing (i := .diff dr dg db) rfl (by simp) room
  exact ⟨_, hexec, ⟨toNat_addDelta .., toNat_addDelta .., toNat_addDelta .., rfl⟩, rfl, rfl,
    heffects⟩

/-- Settles O36: `addDelta` on each colour channel, of two deltas for red and blue. -/
theorem lumaDecoded : Obligations.LumaDecoded := by
  intro dg drg dbg s room
  obtain ⟨hexec, heffects⟩ := exec_refreshing (i := .luma dg drg dbg) rfl (by simp) room
  refine ⟨_, hexec, ⟨?_, toNat_addDelta .., ?_, rfl⟩, rfl, rfl, heffects⟩
  · rw [Int.add_assoc]
    exact toNat_addDelta ..
  · rw [Int.add_assoc]
    exact toNat_addDelta ..

/-- Of a run of `n`, one pixel less is pending after its first. -/
theorem afterChunk_run_pending (P : Config.Params) {n : Nat} (h : n ≤ 62) (s : State) :
    (afterChunk P (.run n) s).remainingRun.toNat = n - 1 := by
  change (BitVec.ofNat 6 (n - 1)).toNat = n - 1
  rw [BitVec.toNat_ofNat]
  omega

/-- Settles O37: the pending count fits its six bits. -/
theorem runDecoded : Obligations.RunDecoded := by
  intro n s _ hhigh room
  obtain ⟨hexec, heffects⟩ := exec_refreshing (i := .run n) rfl (by simp) room
  exact ⟨_, hexec, rfl, rfl, afterChunk_run_pending block hhigh s, heffects⟩

/-! ## The fetch of the next chunk (rules R233, R236, R239) -/

theorem State.srcBytes_add (s : State) (a m n : Nat) :
    s.srcBytes a (m + n) = s.srcBytes a m ++ s.srcBytes (a + m) n := by
  induction m generalizing a with
  | zero => simp [State.srcBytes]
  | succ m ih =>
    rw [Nat.succ_add, State.srcBytes, ih, State.srcBytes, List.cons_append,
      Nat.succ_add_eq_add_succ]

/-- A chunk takes at most five bytes, whatever its tag (`30_encoding.md` rule R103). -/
theorem chunkLength_le (tag : Byte) : chunkLength tag ≤ maxChunkLength := by
  unfold chunkLength
  split_ifs <;> decide

section
variable {s : State}

/-- Before the last eight bytes a chunk is read whole: `total` does not cut it short. -/
theorem State.chunkAt_eq (htag : s.pos + 8 < s.total.toNat) :
    s.chunkAt = s.srcBytes s.pos (chunkLength (s.srcByte s.pos)) := by
  have hlen : chunkLength (s.srcByte s.pos) ≤ 5 := chunkLength_le _
  rw [State.chunkAt, Nat.min_eq_left (by omega)]

/-- What the bytes at `pos` decode to is also what the chunk's own bytes decode to, with none left
over. -/
theorem decodeChunk_chunkAt (htag : s.pos + 8 < s.total.toNat) {i : Instr} {rest : List Byte}
    (hd : decodeChunk (s.srcBytes s.pos maxChunkLength) = .ok (i, rest)) :
    decodeChunk s.chunkAt = .ok (i, []) := by
  obtain ⟨hc, hw⟩ := decodeChunk_isChunk_wellFormed hd
  have hlen : chunkLength (s.srcByte s.pos) + rest.length = maxChunkLength :=
    (chunkLength_of_decodeChunk hd).trans (s.srcBytes_length s.pos maxChunkLength)
  have hbytes : encode i ++ rest = s.srcBytes s.pos maxChunkLength := encode_of_decodeChunk hd
  rw [← hlen, State.srcBytes_add, ← State.chunkAt_eq htag] at hbytes
  obtain ⟨hchunk, -⟩ := List.append_inj' hbytes (by rw [State.srcBytes_length])
  simpa [hchunk] using decodeChunk_encode hc hw []

/-- Every tag starts a chunk, so the bytes at `pos` decode to one. -/
theorem decodeChunk_srcBytes (s : State) :
    ∃ i rest, decodeChunk (s.srcBytes s.pos maxChunkLength) = .ok (i, rest) :=
  decodeChunk_total _ _ _ _ _ []

/-- The fetch gives the chunk that the bytes at `pos` decode to. -/
theorem fetchChunk_of_decodeChunk (htag : s.pos + 8 < s.total.toNat)
    (hsrc : s.total.toNat ≤ s.src.size) {i : Instr} {rest : List Byte}
    (hd : decodeChunk (s.srcBytes s.pos maxChunkLength) = .ok (i, rest)) :
    fetchChunk s = .chunk i := by
  have hlen : s.chunkAt.length ≤ 5 := by
    rw [State.chunkAt_eq htag, State.srcBytes_length]
    exact chunkLength_le _
  rw [fetchChunk, if_neg (by omega), if_neg (by omega), decodeChunk_chunkAt htag hd]

theorem fetchChunk_truncated (hshort : s.total.toNat ≤ s.pos + 8) : fetchChunk s = .truncated :=
  if_pos hshort

end

/-- Settles O41: the chunk at `pos` decodes, so only SRC's end can stop its fetch. -/
theorem operandGuardNeverFires : Obligations.OperandGuardNeverFires := by
  intro s htag
  obtain ⟨i, rest, hd⟩ := decodeChunk_srcBytes s
  refine ⟨?_, fun hsrc => ?_⟩
  · rw [fetchChunk, if_neg (by omega), decodeChunk_chunkAt htag hd]
    split <;> simp
  · exact ⟨i, fetchChunk_of_decodeChunk htag hsrc hd, (decodeChunk_isChunk_wellFormed hd).1⟩

/-! ## Phase D_PIXELS (rules R234 to R237, R247) -/

section
variable {ex : Instr → State → Result} {s : State}

theorem stepWith_dPixels (P : Config.Params) (hhost : s.host = []) (hphase : s.phase = .dPixels) :
    stepWith P ex s = dPixels ex s := by
  rw [stepWith_engine P ex s hhost, engineStepWith, hphase]

theorem dPixels_done (hi : s.pixels ≤ s.i) : dPixels ex s = .next s.completeDecode :=
  if_neg (Nat.not_lt.2 hi)

theorem dPixels_repeat (hi : s.i < s.pixels) (hr : s.remainingRun ≠ 0) :
    dPixels ex s = repeatPixel s := by
  rw [dPixels, if_pos hi, if_pos hr]

theorem dPixels_chunk (hi : s.i < s.pixels) (hr : s.remainingRun = 0) {i : Instr}
    (hf : fetchChunk s = .chunk i) : dPixels ex s = ex i s := by
  rw [dPixels, if_pos hi, if_neg (not_not.2 hr), runChunk, hf]

theorem dPixels_truncated (hi : s.i < s.pixels) (hr : s.remainingRun = 0)
    (hf : fetchChunk s = .truncated) : dPixels ex s = .next (s.fail .formatError) := by
  rw [dPixels, if_pos hi, if_neg (not_not.2 hr), runChunk, hf]

/-- The bytes of the decoded pixels are counted below `cap`, so in 64 bits. -/
theorem State.DecoderOk.resultLen_toNat {P : Config.Params} (hs : s.DecoderOk P) :
    (BitVec.ofNat 64 s.out).toNat = s.i * s.cEff.toNat := by
  have hcap : s.cap.toNat < 2 ^ 64 := s.cap.isLt
  have hle : s.i * s.cEff.toNat ≤ s.pixels * s.cEff.toNat := Nat.mul_le_mul_right _ hs.index
  have hbound := hs.bound
  rw [BitVec.toNat_ofNat, hs.out, Nat.mod_eq_of_lt (by omega)]

end

/-- Settles O31: no pixel is left; the invariant counts `c_eff` bytes for each. -/
theorem decodeCompletes : Obligations.DecodeCompletes := by
  intro s hhost hphase hi
  refine ⟨(stepWith_dPixels block hhost hphase).trans (dPixels_done hi), fun hinv => ?_⟩
  have dec := (State.phaseOk_dPixels hphase).1 hinv.phase
  rw [dec.resultLen_toNat, Nat.le_antisymm dec.index hi]
  rfl

/-- Settles O39: the pixel is emitted with one less pending. -/
theorem pendingRunStep : Obligations.PendingRunStep := by
  intro s hhost hphase hi hr room
  have hne : s.remainingRun ≠ 0 := by bv_omega
  refine ⟨_, (stepWith_dPixels block hhost hphase).trans <| (dPixels_repeat hi hne).trans <|
    emitPixel_room room, ?_, rfl, rfl, rfl, decoder_emitted_wrote s s.px s.pos _ s.cache,
    decoder_emitted_frame s s.px s.pos _ s.cache⟩
  change (s.remainingRun - 1).toNat = s.remainingRun.toNat - 1
  bv_omega

/-- Settles O40: the fetch finds no tag. -/
theorem truncatedStreamFails : Obligations.TruncatedStreamFails :=
  fun s hhost hphase hi hr hshort => ⟨_, (stepWith_dPixels block hhost hphase).trans
    (dPixels_truncated hi hr (fetchChunk_truncated hshort)), failed_fail s .formatError⟩

/-- Settles O42: the chunk at `pos` is the one fetched; a CMD write is the command of its byte. -/
theorem stepRunsDecodedInstruction : Obligations.StepRunsDecodedInstruction := by
  refine ⟨fun s i rest hhost hphase hi hr htag hsrc hd => ?_, fun s i v ms hhost hd => ?_,
    fun i s => by rw [execWith_block], fun s => by rw [stepOf_block]⟩
  · exact (stepWith_dPixels block hhost hphase).trans
      (dPixels_chunk hi hr (fetchChunk_of_decodeChunk htag hsrc hd))
  · rw [step_host s _ ms hhost]
    change writeCmd exec v (s.withHost ms) = exec i (s.withHost ms)
    rw [writeCmd, hd]

end Sys2Proof.Machine
end

/-! # Proofs: the round trip (`44_decoder.md` rule R248)

The encoder holds back the pixels of its pending run, and what it has written below `out` stays. So
a decoder that has read the stream up to `out` is behind the encoder by the pending run and
otherwise in step with it: the same pixel, the same cache, `pos` at the encoder's `out` (`Behind`).
Every pixel the encoder takes keeps that, and the final flush leaves nothing pending. -/

section
namespace Sys2Proof.Machine

/-! ## Runs of the machine, step by step -/

section
variable {M : Host.Core} {s t v : M.State}

/-- The first step of a run. -/
theorem run_succ_of_step (k : Nat) (h : M.step s = .next v) : M.run (k + 1) s = M.run k v := by
  rw [Host.Core.run, h]

/-- One more step at the end of a run. -/
theorem run_snoc {k : Nat} (hrun : M.run k s = .next v) (h : M.step v = .next t) :
    M.run (k + 1) s = .next t := by
  induction k generalizing s with
  | zero =>
    cases hrun
    exact run_succ_of_step 0 h
  | succ k ih =>
    rw [Host.Core.run] at hrun
    split at hrun
    · rename_i hs
      rw [run_succ_of_step (k + 1) hs]
      exact ih hrun
    · cases hrun
    · cases hrun

end

/-! ## Bytes in place -/

/-- From offset `a` on, `f` reads `bs`. -/
def BytesAt (f : Nat → Byte) (a : Nat) (bs : List Byte) : Prop :=
  ∀ k (h : k < bs.length), f (a + k) = bs[k]

theorem bytesAt_append_iff {f : Nat → Byte} {a : Nat} {bs cs : List Byte} :
    BytesAt f a (bs ++ cs) ↔ BytesAt f a bs ∧ BytesAt f (a + bs.length) cs := by
  constructor
  · refine fun h => ⟨fun k hk => ?_, fun k hk => ?_⟩
    · rw [h k (by rw [List.length_append]; omega), List.getElem_append_left hk]
    · rw [Nat.add_assoc, h _ (by rw [List.length_append]; omega),
        List.getElem_append_right (Nat.le_add_right _ _)]
      simp
  · rintro ⟨hbs, hcs⟩ k hk
    rw [List.length_append] at hk
    rw [List.getElem_append]
    split
    · exact hbs k _
    · rw [← hcs, Nat.add_assoc, Nat.add_sub_of_le (by omega)]

theorem BytesAt.srcBytes_eq {s : State} {a : Nat} {bs : List Byte} (h : BytesAt s.srcByte a bs) :
    s.srcBytes a bs.length = bs := by
  refine List.ext_getElem (s.srcBytes_length a _) fun k hk hk' => ?_
  rw [State.srcBytes_get, h k hk']

/-- The bytes of pixel `k` in a buffer of `ch` channels are those of `p`. -/
def Shows (image : Nat → Byte) (ch : Byte) (k : Nat) (p : Pixel) : Prop :=
  BytesAt image (k * ch.toNat) (pixelBytes ch p)

/-- SRC holds the pixel the encoder fetches. -/
theorem State.shows_fetchPixel {s : State} (hCH : s.CH = 3 ∨ s.CH = 4) :
    Shows s.srcByte s.CH s.i s.fetchPixel := by
  rw [State.fetchPixel_eq hCH]
  intro k hk
  obtain h | h := hCH <;> simp only [h] at hk ⊢
  · match k, hk with
    | 0, _ | 1, _ | 2, _ => rfl
  · match k, hk with
    | 0, _ | 1, _ | 2, _ | 3, _ => rfl

/-- The stream in `u`'s SRC holds `bs` at `q`, before its last eight bytes. -/
structure StreamAt (u : State) (q : Nat) (bs : List Byte) : Prop where
  bytes : BytesAt u.srcByte q bs
  beforeTrailer : q + bs.length + trailer.length ≤ u.total.toNat

theorem streamAt_append {u : State} {q : Nat} {bs cs : List Byte} (h : StreamAt u q (bs ++ cs)) :
    StreamAt u q bs ∧ StreamAt u (q + bs.length) cs := by
  obtain ⟨hbs, hcs⟩ := bytesAt_append_iff.1 h.bytes
  have hend := h.beforeTrailer
  rw [List.length_append] at hend
  exact ⟨⟨hbs, by omega⟩, ⟨hcs, by omega⟩⟩

/-! ## The pixel phases of ENCODE as a whole -/

section
variable {P : Config.Params} {s t u : State}

/-- The pending run is written, and E_TRAILER is next (`45_commands.md` rule R275). -/
def State.flushed (s : State) (P : Config.Params) : State :=
  ({ s with run := 0, phase := .eTrailer } : State).append
    (chunkBytes (flushChunks P s.run s.prev s.cache))

/-- The encoder is between two pixels, and no host move is pending. -/
structure State.EncoderReady (s : State) (P : Config.Params) : Prop where
  host : s.host = []
  phase : s.phase = .ePixels
  ok : s.EncoderOk P

theorem stepOf_engine (P : Config.Params) (hhost : s.host = []) :
    stepOf P s = engineStepWith P (execWith P) s := stepWith_engine P (execWith P) s hhost

theorem State.EncoderReady.stepOf_eq (hs : s.EncoderReady P) : stepOf P s = ePixels P s := by
  rw [stepOf_engine P hs.host, engineStepWith, hs.phase]

theorem State.EncoderReady.pixelEncoded (hs : s.EncoderReady P) (hi : s.i < s.pixels) :
    (s.pixelEncoded P).EncoderReady P := ⟨hs.host, hs.phase, hs.ok.pixelEncoded hi⟩

theorem State.EncoderReady.stepOf_pixel (hs : s.EncoderReady P) (hi : s.i < s.pixels) :
    stepOf P s = .next (s.pixelEncoded P) :=
  hs.stepOf_eq.trans <| ePixels_encoded hi (hs.ok.args.pixelInSrc hi)
    ((hs.ok.pixelRoom hi).trans hs.ok.args.dstSize)

/-- After the flush there is room for the trailer, below `cap`. -/
theorem State.EncoderOk.flushed_trailerRoom (hs : s.EncoderOk P) :
    (s.flushed P).out + trailer.length ≤ s.cap.toNat := by
  have hlen : (s.flushed P).out = s.out + (if s.run = 0 then 0 else 1) :=
    congrArg (s.out + ·) (chunkBytes_flushChunks_length P s.prev s.cache hs.run)
  have hpix : s.i * (s.CH.toNat + 1) ≤ s.pixels * (s.CH.toNat + 1) :=
    Nat.mul_le_mul_right _ hs.index
  have hhigh := hs.high
  have hstream := hs.args.stream_le
  omega

/-- Three steps end the image: no pixel is left, the flush, the trailer. -/
theorem State.EncoderReady.run_end (hs : s.EncoderReady P) (hi : s.i = s.pixels) :
    (coreOf P).run 3 s = .next ((s.flushed P).append trailer).complete := by
  have room := hs.ok.args.dstSize
  have flush : stepOf P { s with phase := .eFlush } = .next (s.flushed P) := by
    rw [stepOf_engine (s := { s with phase := .eFlush }) P hs.host, engineStepWith]
    exact push_room _ _ (hs.ok.flushRoom.trans room)
  have finish : stepOf P (s.flushed P) = .next ((s.flushed P).append trailer).complete := by
    rw [stepOf_engine (s := s.flushed P) P hs.host]
    refine (eTrailer_next_iff _ _).2 ⟨hs.ok.flushed_trailerRoom.trans (room.trans ?_), rfl⟩
    exact (Memory.writeAll_size ..).ge
  calc (coreOf P).run 3 s
    _ = (coreOf P).run 2 { s with phase := .eFlush } :=
      run_succ_of_step 2 (hs.stepOf_eq.trans (ePixels_done P hi.ge))
    _ = (coreOf P).run 1 (s.flushed P) := run_succ_of_step 1 flush
    _ = (coreOf P).run 0 ((s.flushed P).append trailer).complete := run_succ_of_step 0 finish

/-- From `s` on, the pixel phases of ENCODE end in `t`. -/
inductive EncodesTo (P : Config.Params) (t : State) : State → Prop
  /-- No pixel is left: the flush and the trailer. -/
  | done {s : State} (hs : s.EncoderReady P) (hi : s.i = s.pixels)
    (ht : t = ((s.flushed P).append trailer).complete) : EncodesTo P t s
  /-- A pixel is left. -/
  | pixel {s : State} (hs : s.EncoderReady P) (hi : s.i < s.pixels)
    (rest : EncodesTo P t (s.pixelEncoded P)) : EncodesTo P t s

theorem State.EncoderReady.encodesTo {m : Nat} (hs : s.EncoderReady P) (hm : s.i + m = s.pixels)
    (hrun : (coreOf P).run (m + 3) s = .next t) : EncodesTo P t s := by
  induction m generalizing s with
  | zero =>
    rw [Nat.zero_add, hs.run_end hm] at hrun
    exact .done hs hm (Host.Outcome.next.inj hrun).symm
  | succ m ih =>
    have hi : s.i < s.pixels := by omega
    have hstep : (coreOf P).run (m + 3 + 1) s = (coreOf P).run (m + 3) (s.pixelEncoded P) :=
      run_succ_of_step (m + 3) (hs.stepOf_pixel hi)
    have hleft : s.i + 1 + m = s.pixels := by omega
    exact .pixel hs hi (ih (hs.pixelEncoded hi) hleft (hstep.symm.trans hrun))

/-- `t` has completed a stream that begins with what `s` has written; the trailer comes after. -/
structure StreamOf (s t : State) : Prop where
  resultLen : t.resultLen.toNat = t.out
  out : s.out + trailer.length ≤ t.out
  kept : ∀ a, a < s.out → t.dstByte a = s.dstByte a

theorem streamOf_complete (h : s.out + trailer.length < 2 ^ 64) :
    StreamOf s (s.append trailer).complete where
  resultLen := by
    change (BitVec.ofNat 64 (s.out + trailer.length)).toNat = s.out + trailer.length
    rw [BitVec.toNat_ofNat, Nat.mod_eq_of_lt h]
  out := le_refl (s.out + trailer.length)
  kept := fun a ha => s.dstByte_append_outside trailer a (.inl ha)

/-- What was written before an append is the beginning of the stream too. -/
theorem StreamOf.of_append {bs : List Byte} (h : StreamOf (u.append bs) t) (hout : u.out = s.out)
    (hdst : u.dst = s.dst) : StreamOf s t where
  resultLen := h.resultLen
  out := by
    have hle := h.out
    rw [State.append_out] at hle
    omega
  kept := fun a ha => by
    rw [h.kept a (by rw [State.append_out]; omega), u.dstByte_append_outside bs a (.inl (by omega)),
      State.dstByte, hdst, State.dstByte]

/-- After the flush only the trailer is missing. -/
theorem State.EncoderOk.streamOf_flushed (hs : s.EncoderOk P) :
    StreamOf (s.flushed P) ((s.flushed P).append trailer).complete := by
  have hroom := hs.flushed_trailerRoom
  have hcap : s.cap.toNat < 2 ^ 64 := s.cap.isLt
  exact streamOf_complete (by omega)

theorem EncodesTo.streamOf (h : EncodesTo P t s) : StreamOf s t := by
  induction h with
  | done hs hi ht =>
    rw [ht]
    exact hs.ok.streamOf_flushed.of_append rfl rfl
  | pixel hs hi rest ih => exact ih.of_append rfl rfl

/-- `u`'s SRC holds the stream of `t`. -/
structure HoldsStream (u t : State) : Prop where
  total : u.total.toNat = t.out
  bytes : ∀ a, a < t.out → u.srcByte a = t.dstByte a

/-- What the encoder has just appended stands in the stream at its old `out`. -/
theorem StreamOf.streamAt {bs : List Byte} (h : StreamOf (s.append bs) t) (hu : HoldsStream u t) :
    StreamAt u s.out bs := by
  have hout := h.out
  rw [State.append_out] at hout
  refine ⟨fun k hk => ?_, hu.total ▸ hout⟩
  rw [hu.bytes _ (by omega), h.kept _ (by rw [State.append_out]; omega),
    s.dstByte_append_inside bs k hk]

end

/-! ## The pixels of DECODE -/

/-- A chunk takes its bytes from the stream. -/
theorem afterChunk_pos_eq (P : Config.Params) {i : Instr} (hc : i.isChunk = true) (s : State) :
    (afterChunk P i s).pos = s.pos + (encode i).length := by
  cases i with
  | rgb | rgba | index | diff | luma | run => rfl
  | encode | decode => cases hc

/-- The chunk whose bytes stand at `pos` is fetched. -/
theorem fetchChunk_of_streamAt {i : Instr} (hc : i.isChunk = true) (hw : i.wellFormed = true)
    {s : State} (hbytes : StreamAt s s.pos (encode i)) (hsrc : s.total.toNat ≤ s.src.size) :
    fetchChunk s = .chunk i := by
  obtain ⟨tag, operands, he, hlen⟩ := encode_length_eq_chunkLength i hw
  have hpos : 0 < (encode i).length := by simp [he]
  have hle : (encode i).length ≤ maxChunkLength := hlen ▸ chunkLength_le tag
  have hend : s.pos + (encode i).length + 8 ≤ s.total.toNat := hbytes.beforeTrailer
  refine fetchChunk_of_decodeChunk (by omega) hsrc ?_
    (rest := s.srcBytes (s.pos + (encode i).length) (maxChunkLength - (encode i).length))
  rw [← Nat.add_sub_of_le hle, State.srcBytes_add, hbytes.bytes.srcBytes_eq,
    Nat.add_sub_cancel_left, decodeChunk_encode hc hw]

/-- A DECODE from `u` on has come to `d`: each step has emitted one pixel, and they are the first
pixels of `image`. -/
structure Decoding (P : Config.Params) (image : Nat → Byte) (u d : State) : Prop where
  reached : (coreOf P).run d.i u = .next d
  host : d.host = []
  phase : d.phase = .dPixels
  src : d.src = u.src
  total : d.total = u.total
  cEff : d.cEff = u.cEff
  pixels : d.pixels = u.pixels
  ok : d.DecoderOk P
  emitted : ∀ a, a < d.out → d.dstByte a = image a

section
variable {P : Config.Params} {image : Nat → Byte} {u d : State}

/-- At the entry of the pixel phase nothing has been emitted. -/
theorem State.DecoderOk.decoding (hu : u.DecoderOk P) (hhost : u.host = [])
    (hphase : u.phase = .dPixels) (hi : u.i = 0) (hout : u.out = 0) : Decoding P image u u where
  reached := by
    rw [hi]
    rfl
  host := hhost
  phase := hphase
  src := rfl
  total := rfl
  cEff := rfl
  pixels := rfl
  ok := hu
  emitted := fun a ha => absurd ha (by omega)

theorem Decoding.stepOf_eq (hd : Decoding P image u d) : stepOf P d = dPixels (execWith P) d :=
  stepWith_dPixels P hd.host hd.phase

theorem Decoding.room (hd : Decoding P image u d) (hi : d.i < u.pixels) : HasRoom d :=
  (hd.ok.pixelRoom (hd.pixels ▸ hi)).trans hd.ok.dstSize

/-- A step that changes the decoder's own registers and emits the next pixel of the image. -/
theorem Decoding.emit (hd : Decoding P image u d) {px : Pixel} {pos : Nat} {remainingRun : BitVec 6}
    {cache : Cache} (hi : d.i < u.pixels) (hshow : Shows image u.cEff d.i px)
    (ok : State.DecoderOk { d with px, pos, remainingRun, cache } P)
    (hstep : stepOf P d = .next ({ d with px, pos, remainingRun, cache } : State).emitted) :
    Decoding P image u ({ d with px, pos, remainingRun, cache } : State).emitted where
  reached := run_snoc hd.reached hstep
  host := hd.host
  phase := hd.phase
  src := hd.src
  total := hd.total
  cEff := hd.cEff
  pixels := hd.pixels
  ok := ok.emitted (by rw [← hd.pixels] at hi; exact hi)
  emitted := fun a ha => by
    obtain ⟨-, hout, hwrote⟩ := decoder_emitted_wrote d px pos remainingRun cache
    rw [hout] at ha
    by_cases hold : a < d.out
    · rw [hwrote.before a hold, hd.emitted a hold]
    · rw [Shows, ← hd.cEff, ← hd.ok.out] at hshow
      obtain ⟨k, rfl⟩ := Nat.exists_eq_add_of_le (Nat.not_lt.1 hold)
      have hk : k < (pixelBytes d.cEff px).length := by
        rw [pixelBytes_length]
        exact Nat.lt_of_add_lt_add_left ha
      exact (hwrote.wrote k hk).trans (hshow k hk).symm

/-- The chunk at `pos` gives the next pixel of the image. -/
theorem Decoding.chunk (hd : Decoding P image u d) (hr : d.remainingRun = 0) (hi : d.i < u.pixels)
    {i : Instr} (hc : i.isChunk = true) (hw : i.wellFormed = true)
    (hstream : StreamAt u d.pos (encode i)) (hshow : Shows image u.cEff d.i (afterChunk P i d).px) :
    Decoding P image u (afterChunk P i d).emitted := by
  have hstream' : StreamAt d d.pos (encode i) := by
    have hsrc : d.srcByte = u.srcByte := by
      funext a
      rw [State.srcByte, hd.src, State.srcByte]
    exact ⟨hsrc ▸ hstream.bytes, hd.total ▸ hstream.beforeTrailer⟩
  have hf := fetchChunk_of_streamAt hc hw hstream' hd.ok.srcSize
  have hstep := hd.stepOf_eq.trans <| (dPixels_chunk (hd.pixels ▸ hi) hr hf).trans <|
    execWith_of_hasRoom hc (hd.room hi)
  have ok := hd.ok.chunkTaken hf
  obtain ⟨p, q, rr, ca, h⟩ := afterChunk_frame P i d
  rw [h] at hshow hstep ok ⊢
  exact hd.emit hi hshow ok hstep

/-- The pending run gives the next pixel of the image. -/
theorem Decoding.repeated (hd : Decoding P image u d) (hr : d.remainingRun ≠ 0)
    (hi : d.i < u.pixels) (hshow : Shows image u.cEff d.i d.px) :
    Decoding P image u ({ d with remainingRun := d.remainingRun - 1 } : State).emitted :=
  hd.emit hi hshow (hd.ok.runCounted hr) <| hd.stepOf_eq.trans <|
    (dPixels_repeat (hd.pixels ▸ hi) hr).trans <| emitPixel_room (hd.room hi)

end

/-! ## The decoder behind the encoder -/

/-- A DECODE from `u` on is behind an encoder with the registers `i`, `run`, `prev`, `cache` and
`out` by the pending run and otherwise in step with it: with no run of its own pending it has read
the stream up to `out`, has the same pixel and cache, and the pixels left below `i` are all
`prev`. -/
def Behind (P : Config.Params) (image : Nat → Byte) (u : State) (i run : Nat) (prev : Pixel)
    (cache : Cache) (out : Nat) : Prop :=
  ∃ d, Decoding P image u d ∧ d.remainingRun = 0 ∧ d.px = prev ∧ d.cache = cache ∧ d.pos = out ∧
    d.i + run = i ∧ ∀ k, d.i ≤ k → k < i → Shows image u.cEff k prev

section
variable {P : Config.Params} {image : Nat → Byte} {u : State} {i n : Nat} {px prev : Pixel}
  {cache : Cache} {out : Nat}

/-- A pixel the encoder only counts. -/
theorem Behind.counted (h : Behind P image u i n prev cache out)
    (hshow : Shows image u.cEff i prev) : Behind P image u (i + 1) (n + 1) prev cache out := by
  obtain ⟨d, hd, hr, hpx, hca, hpos, hi, hpending⟩ := h
  refine ⟨d, hd, hr, hpx, hca, hpos, by omega, fun k hlow hhigh => ?_⟩
  obtain hlt | rfl := Nat.lt_succ_iff_lt_or_eq.1 hhigh
  · exact hpending k hlow hlt
  · exact hshow

/-- The pending run of the decoder catches up with the encoder. -/
theorem Decoding.behind {d : State} (hd : Decoding P image u d) (hn : d.remainingRun.toNat = n)
    (hi : d.i + n = i) (hpixels : i ≤ u.pixels)
    (hpending : ∀ k, d.i ≤ k → k < i → Shows image u.cEff k d.px) :
    Behind P image u i 0 d.px d.cache d.pos := by
  induction n generalizing d with
  | zero => exact ⟨d, hd, BitVec.eq_of_toNat_eq hn, rfl, rfl, rfl, hi, hpending⟩
  | succ n ih =>
    have hr : d.remainingRun ≠ 0 := by bv_omega
    have hcount : (d.remainingRun - 1).toNat = n := by bv_omega
    have hnext := hd.repeated hr (by omega) (hpending _ (le_refl _) (by omega))
    have hrest := ih hnext hcount ((Nat.succ_add_eq_add_succ d.i n).trans hi)
      fun k hlow hhigh => hpending k (Nat.le_of_succ_le hlow) hhigh
    exact hrest

/-- A RUN chunk for the pending pixels, which the encoder has written with no write to the cache. -/
theorem Behind.run (h : Behind P image u i n prev cache out) (hn : (Instr.run n).wellFormed = true)
    (hpixels : i ≤ u.pixels) (held : cache[slot P prev] = prev)
    (hstream : StreamAt u out (encode (.run n))) :
    Behind P image u i 0 prev cache (out + 1) := by
  obtain ⟨d, hd, hr, rfl, rfl, rfl, hi, hpending⟩ := h
  obtain ⟨hlow, hhigh⟩ := (wellFormed_run_iff n).1 hn
  have hfirst := hd.chunk hr (by omega) rfl hn hstream (hpending _ (le_refl _) (by omega))
  have hrest := hfirst.behind (i := i) (n := n - 1) (afterChunk_run_pending P hhigh d)
    (by change d.i + 1 + (n - 1) = i; omega) hpixels
    fun k hlow hhigh => hpending k (Nat.le_of_succ_le hlow) hhigh
  have hcache : (afterChunk P (.run n) d).emitted.cache = d.cache := cachePut_held held
  rwa [hcache] at hrest

/-- A chunk for a pixel with none pending before it. -/
theorem Behind.chunk (h : Behind P image u i 0 prev cache out) (hi : i < u.pixels) {c : Instr}
    {cache' : Cache} (hc : c.isChunk = true) (hw : c.wellFormed = true)
    (hafter : ∀ d : State, d.px = prev → d.cache = cache → (afterChunk P c d).px = px ∧
      (afterChunk P c d).cache = cache' ∧ (afterChunk P c d).remainingRun = d.remainingRun)
    (hstream : StreamAt u out (encode c)) (hshow : Shows image u.cEff i px) :
    Behind P image u (i + 1) 0 px cache' (out + (encode c).length) := by
  obtain ⟨d, hd, hr, hpx, hca, rfl, rfl, -⟩ := h
  obtain ⟨rfl, rfl, hrun⟩ := hafter d hpx hca
  have hidx : (afterChunk P c d).emitted.i = d.i + 1 := (afterChunk_emitted P c d).1.i
  exact ⟨_, hd.chunk hr hi hc hw hstream hshow, hrun.trans hr, rfl, rfl,
    afterChunk_pos_eq P hc d, hidx, fun k hlow hhigh => absurd hhigh (by omega)⟩

/-- INDEX of the slot that holds a pixel. -/
theorem Behind.index (h : Behind P image u i 0 prev cache out) (hi : i < u.pixels)
    (hhit : cache[slot P px] = px) (hstream : StreamAt u out (encode (.index (slot P px))))
    (hshow : Shows image u.cEff i px) : Behind P image u (i + 1) 0 px cache (out + 1) :=
  h.chunk hi (c := .index (slot P px)) rfl rfl
    (fun _ _ hca => ⟨by subst hca; exact hhit, hca, rfl⟩) hstream hshow

/-- The chunks of a flush bring the decoder level (rule R195). -/
theorem Behind.flush {run : BitVec 6} (h : Behind P image u i run.toNat prev cache out)
    (hrun : run.toNat ≤ 61) (hpixels : i ≤ u.pixels) (held : cache[slot P prev] = prev)
    (hstream : StreamAt u out (chunkBytes (flushChunks P run prev cache))) :
    Behind P image u i 0 prev cache
      (out + (chunkBytes (flushChunks P run prev cache)).length) := by
  obtain ⟨rfl, hf⟩ | ⟨rfl, -, -, hf⟩ | ⟨hne, -, hf⟩ := flushChunks_cases P prev cache hrun <;>
    rw [hf] at hstream ⊢
  · exact h
  · obtain ⟨d, hd, hr, hpx, hca, hpos, rfl, hpending⟩ := h
    have level : Behind P image u d.i 0 prev cache out :=
      ⟨d, hd, hr, hpx, hca, hpos, rfl, fun k hlow hhigh => absurd hhigh (by omega)⟩
    exact level.index hpixels held hstream (hpending d.i (le_refl _) (Nat.lt_succ_self _))
  · rw [chunkBytes_singleton] at hstream
    exact h.run ((wellFormed_run_iff _).2 ⟨by bv_omega, by omega⟩) hpixels held hstream

/-- A literal, which both sides put into its slot. -/
theorem Behind.literal (h : Behind P image u i 0 prev cache out) (hi : i < u.pixels) {CH : Byte}
    (hCH : CH = 3 ∨ CH = 4) (halpha : CH = 3 → px.a = prev.a)
    (hstream : StreamAt u out (encode (literalChunk CH px prev)))
    (hshow : Shows image u.cEff i px) :
    Behind P image u (i + 1) 0 px (cachePut cache (slot P px) px)
      (out + (encode (literalChunk CH px prev)).length) := by
  refine h.chunk hi (literalChunk_isChunk CH px prev) (literalChunk_wellFormed CH px prev) ?_
    hstream hshow
  rintro d rfl rfl
  obtain ⟨k, hafter⟩ := afterChunk_literalChunk (P := P) (s := d) hCH halpha
  rw [hafter]
  exact ⟨rfl, rfl, rfl⟩

/-- Every pixel the encoder takes keeps the decoder behind by the pending run (rule R192). -/
theorem Behind.pixel {run : BitVec 6} (h : Behind P image u i run.toNat prev cache out)
    (hrun : run.toNat ≤ 61) (hi : i < u.pixels) (held : cache[slot P prev] = prev) {CH : Byte}
    (hCH : CH = 3 ∨ CH = 4) (halpha : CH = 3 → px.a = prev.a)
    (hshow : Shows image u.cEff i px)
    (hstream : StreamAt u out (chunkBytes (encodePixel P CH px prev run cache).chunks)) :
    Behind P image u (i + 1) (encodePixel P CH px prev run cache).run.toNat
      (encodePixel P CH px prev run cache).prev (encodePixel P CH px prev run cache).cache
      (out + (chunkBytes (encodePixel P CH px prev run cache).chunks).length) := by
  obtain ⟨rfl, hfull, he⟩ | ⟨rfl, hopen, he⟩ | ⟨-, hhit, he⟩ | ⟨-, -, he⟩ :=
    encodePixel_cases P CH px prev run cache <;> rw [he] at hstream ⊢
  · have h62 : run.toNat + 1 = 62 := by bv_omega
    have hall := h.counted hshow
    rw [h62] at hall
    rw [chunkBytes_singleton] at hstream
    exact hall.run rfl hi held hstream
  · have hnext : (run + 1).toNat = run.toNat + 1 := by bv_omega
    change Behind P image u (i + 1) (run + 1).toNat px cache out
    rw [hnext]
    exact h.counted hshow
  · rw [chunkBytes_append, chunkBytes_singleton] at hstream
    obtain ⟨hflush, hchunk⟩ := streamAt_append hstream
    rw [chunkBytes_append, List.length_append, ← Nat.add_assoc]
    exact (h.flush hrun hi.le held hflush).index hi hhit hchunk hshow
  · rw [chunkBytes_append, chunkBytes_singleton] at hstream
    obtain ⟨hflush, hchunk⟩ := streamAt_append hstream
    rw [chunkBytes_append, chunkBytes_singleton, List.length_append, ← Nat.add_assoc]
    exact (h.flush hrun hi.le held hflush).literal hi hCH halpha hchunk hshow

end

/-! ## The whole image -/

section
variable {P : Config.Params} {s t u : State}

/-- The decoder is behind the encoder's state. -/
abbrev State.Leads (s : State) (P : Config.Params) (u : State) : Prop :=
  Behind P s.srcByte u s.i s.run.toNat s.prev s.cache s.out

theorem State.EncoderReady.leads_pixelEncoded (hs : s.EncoderReady P) (hi : s.i < s.pixels)
    (hcEff : u.cEff = s.CH) (hpixels : u.pixels = s.pixels) (h : s.Leads P u)
    (hstream : StreamAt u s.out (chunkBytes (s.encoded P).chunks)) :
    (s.pixelEncoded P).Leads P u := by
  have hCH := channels_of_validDesc hs.ok.args.desc
  refine Behind.pixel h hs.ok.run (hpixels ▸ hi) hs.ok.prevHeld hCH (fun h3 => ?_) ?_ hstream
  · rw [hs.ok.alpha h3, s.fetchPixel_alpha h3]
  · rw [hcEff]
    exact s.shows_fetchPixel hCH

/-- A decoder behind the encoder ends level with it, having read up to the trailer. -/
theorem EncodesTo.behind_end (h : EncodesTo P t s) (hu : HoldsStream u t) (hcEff : u.cEff = s.CH)
    (hpixels : u.pixels = s.pixels) (hlead : s.Leads P u) :
    ∃ px cache out, out + trailer.length = u.total.toNat ∧
      Behind P s.srcByte u u.pixels 0 px cache out := by
  induction h with
  | done hs hi ht =>
    have hstream := hs.ok.streamOf_flushed
    rw [← ht] at hstream
    have hlevel := hlead.flush hs.ok.run (by omega) hs.ok.prevHeld (hstream.streamAt hu)
    rw [hi, ← hpixels] at hlevel
    refine ⟨_, _, _, ?_, hlevel⟩
    rw [hu.total, ht]
    rfl
  | pixel hs hi rest ih =>
    exact ih hcEff hpixels
      (hs.leads_pixelEncoded hi hcEff hpixels hlead (rest.streamOf.streamAt hu))

end

/-- Settles O59: the decoder starts level with the encoder, and ends level with it. -/
theorem roundTrip : Obligations.RoundTrip := by
  intro P hseed s t u hsInv hsHost hsPhase hsI hsOut hsRun hsPrev hsCache hrun huInv huHost huPhase
    huW huHgt huCH huC huPx huRun huCache huPos huI huOut huTotal huSrc
  have hs : s.EncoderReady P := ⟨hsHost, hsPhase, (State.phaseOk_ePixels hsPhase).1 hsInv.phase⟩
  have hu := (State.phaseOk_dPixels huPhase).1 huInv.phase
  have hencodes : EncodesTo P t s := hs.encodesTo (by omega) hrun
  have hlen := hencodes.streamOf.resultLen
  have hholds : HoldsStream u t := ⟨by rw [huTotal, hlen], fun a ha => huSrc a (by omega)⟩
  have hcEff : u.cEff = s.CH := by rw [hu.cEff, huC, ← huCH]; rfl
  have hpixels : u.pixels = s.pixels := by rw [State.pixels, huW, huHgt, State.pixels]
  have hstart : s.Leads P u := by
    refine ⟨u, hu.decoding huHost huPhase huI huOut, huRun, ?_, ?_, ?_, ?_, fun k hlow hhigh => ?_⟩
    · rw [huPx, hsPrev]
    · rw [huCache, hsCache]
    · rw [huPos, hsOut]
    · rw [huI, hsI, hsRun]
      rfl
    · omega
  obtain ⟨px, cache, out, hend, w, hw, hr, -, -, hpos, hi, -⟩ :=
    hencodes.behind_end hholds hcEff hpixels hstart
  have hdone : w.i = w.pixels := hi.trans hw.pixels.symm
  have hbytes : w.i * w.cEff.toNat = s.pixels * s.CH.toNat := by
    rw [hdone, hw.pixels, hpixels, hw.cEff, hcEff]
  refine ⟨w, w.completeDecode, ?_, hw.phase, ?_, hr, hw.stepOf_eq.trans (dPixels_done hdone.ge),
    rfl, rfl, ?_, fun a ha => ?_⟩
  · rw [← show w.i = u.pixels from hi]
    exact hw.reached
  · rw [hpos]
    exact hend
  · exact hw.ok.resultLen_toNat.trans hbytes
  · exact hw.emitted a (by rw [hw.ok.out, hbytes]; exact ha)

end Sys2Proof.Machine
end

/-! # Proofs: the commands (`45_commands.md`)

How ENCODE and DECODE start, what their argument checks answer, how ENCODE completes, and that every
command ends. -/

section
namespace Sys2Proof.Machine

/-! ## The starts (rules R270, R280) -/

theorem Status.busy_of_even {v : Byte} (h : v.toNat % 2 = 0) : Status.busy v = false := by
  simp [Status.busy_eq, h]

theorem Status.running_eq : Status.running = 1 := by decide

theorem execEncode_notBusy {s : State} (hb : Status.busy s.status = false) :
    execEncode s = .next { s.start .eCheck with
      W := s.inWidth, Hgt := s.inHeight, CH := s.inChannels, CS := s.inColorspace } :=
  if_neg (by simp [hb])

theorem execDecode_notBusy {s : State} (hb : Status.busy s.status = false) :
    execDecode s = .next { s.start .dCheck with c := s.inChannels } :=
  if_neg (by simp [hb])

/-- Settles O23: an even STATUS has BUSY = 0, and `State.start` latches the lengths. -/
theorem encodeStarts : Obligations.EncodeStarts := by
  intro s heven
  change execEncode s = _
  rw [execEncode_notBusy (Status.busy_of_even heven), State.start, Status.running_eq]

/-- Settles O24: an even STATUS has BUSY = 0, and `State.start` latches the lengths. -/
theorem decodeStarts : Obligations.DecodeStarts := by
  intro s heven
  change execDecode s = _
  rw [execDecode_notBusy (Status.busy_of_even heven), State.start, Status.running_eq]

/-! ## The argument checks (rules R271, R272, R281) -/

section
variable {s : State}

theorem step_eCheck (hhost : s.host = []) (hphase : s.phase = .eCheck) :
    step s = .next (eCheck block s) := by
  rw [step_engine s hhost, engineStep, engineStepWith, hphase]

theorem step_dCheck (hhost : s.host = []) (hphase : s.phase = .dCheck) :
    step s = .next (dCheck s) := by
  rw [step_engine s hhost, engineStep, engineStepWith, hphase]

end

/-- E_CHECK of this block, with the descriptor test and the bounds in numbers. -/
theorem eCheck_block (s : State) : eCheck block s =
    if ¬ (0 < s.W.toNat ∧ 0 < s.Hgt.toNat ∧ (s.CH = 3 ∨ s.CH = 4) ∧
        s.Hgt.toNat < 400000000 / s.W.toNat) then s.fail .invalidArgument
    else if s.total.toNat > s.src.size ∨ s.cap.toNat > s.dst.size then s.fail .invalidArgument
    else if s.total.toNat < s.W.toNat * s.Hgt.toNat * s.CH.toNat then s.fail .invalidArgument
    else if s.cap.toNat < s.W.toNat * s.Hgt.toNat * (s.CH.toNat + 1) + 22 then
      s.fail .allocationFailure
    else { s.seedEncoder block with phase := .eHeader } :=
  if_congr (not_congr (descriptorTest s.W s.Hgt s.CH).1) rfl rfl

/-- Settles O25: one case per test, in the order of rule R271. -/
theorem encodeChecks : Obligations.EncodeChecks := by
  intro s hhost hphase
  refine ⟨_, step_eCheck hhost hphase, ?_⟩
  rw [eCheck_block]
  split_ifs with hdesc hsizes hsource hwindow
  -- the descriptor is valid, and the other three tests follow
  · exact failed_fail s _
  · exact failed_fail s _
  · exact failed_fail s _
  · rfl
  -- it is not
  · exact failed_fail s _

/-- Settles O29: one case per test, in the order of rule R281. -/
theorem decodeChecks : Obligations.DecodeChecks := by
  intro s hhost hphase
  refine ⟨_, step_dCheck hhost hphase, ?_⟩
  unfold dCheck
  split_ifs with hchannels hsizes
  -- the channel count is allowed, and the test of the lengths follows
  · exact failed_fail s _
  · rfl
  -- it is not
  · exact failed_fail s _

/-! ## The trailer and the completion of ENCODE (rules R275, R276) -/

theorem step_eTrailer {s : State} (hhost : s.host = []) (hphase : s.phase = .eTrailer)
    (room : s.out + trailer.length ≤ s.dst.size) :
    step s = .next (s.append trailer).complete := by
  rw [step_engine s hhost, engineStep, engineStepWith, hphase]
  exact (eTrailer_next_iff s _).2 ⟨room, rfl⟩

/-- Completion does not touch DST. -/
theorem DstWrote.complete {s t : State} {a : Nat} {bs : List Byte} (h : DstWrote s t a bs) :
    DstWrote s t.complete a bs :=
  ⟨h.size, h.wrote, h.before, h.after⟩

/-- Settles O28: the trailer is appended at `out`, and completion sets RESULT_LEN and STATUS. -/
theorem encodeCompletes : Obligations.EncodeCompletes := by
  intro s hhost hphase room
  have hwrote : DstWrote s (s.append trailer).complete s.out trailer :=
    (dstWrote_append rfl trailer).complete
  refine ⟨_, step_eTrailer hhost hphase room, rfl, rfl, rfl, rfl, hwrote, rfl, rfl, rfl, rfl, ?_⟩
  exact ⟨rfl, rfl, rfl, rfl, ⟨rfl, rfl, rfl, rfl, rfl, rfl⟩, ⟨rfl, rfl, rfl, rfl⟩,
    ⟨rfl, rfl, rfl, rfl, rfl, rfl, rfl, rfl⟩, ⟨rfl, rfl, rfl⟩⟩

/-! ## Every command ends (rule R289) -/

section
variable {s t : State}

theorem State.stepsLeft_idle (hp : s.phase = .idle) : s.stepsLeft = 0 := by
  simp only [State.stepsLeft, hp]

theorem State.stepsLeft_eCheck (hp : s.phase = .eCheck) : s.stepsLeft = 5 + s.pixels := by
  simp only [State.stepsLeft, hp]

theorem State.stepsLeft_eHeader (hp : s.phase = .eHeader) : s.stepsLeft = 4 + s.pixels := by
  simp only [State.stepsLeft, hp]

theorem State.stepsLeft_ePixels (hp : s.phase = .ePixels) : s.stepsLeft = 3 + (s.pixels - s.i) := by
  simp only [State.stepsLeft, hp]

theorem State.stepsLeft_eFlush (hp : s.phase = .eFlush) : s.stepsLeft = 2 := by
  simp only [State.stepsLeft, hp]

theorem State.stepsLeft_eTrailer (hp : s.phase = .eTrailer) : s.stepsLeft = 1 := by
  simp only [State.stepsLeft, hp]

theorem State.stepsLeft_dCheck (hp : s.phase = .dCheck) : s.stepsLeft = 3 + block.pixelsMax := by
  simp only [State.stepsLeft, hp]

theorem State.stepsLeft_dHeader (hp : s.phase = .dHeader) : s.stepsLeft = 2 + block.pixelsMax := by
  simp only [State.stepsLeft, hp]

theorem State.stepsLeft_dPixels (hp : s.phase = .dPixels) : s.stepsLeft = 1 + (s.pixels - s.i) := by
  simp only [State.stepsLeft, hp]

theorem State.stepsLeft_pos (hp : s.phase ≠ .idle) : 0 < s.stepsLeft := by
  unfold State.stepsLeft
  split
  · contradiction
  all_goals omega

/-- One pixel more is out of the same image, in the same phase: a step less is left. -/
theorem State.stepsLeft_pixel (hp : s.phase = .ePixels ∨ s.phase = .dPixels) (hi : s.i < s.pixels)
    (hphase : t.phase = s.phase) (hpixels : t.pixels = s.pixels) (hnext : t.i = s.i + 1) :
    t.stepsLeft < s.stepsLeft := by
  obtain hp | hp := hp
  · rw [State.stepsLeft_ePixels hp, State.stepsLeft_ePixels (hphase.trans hp)]
    omega
  · rw [State.stepsLeft_dPixels hp, State.stepsLeft_dPixels (hphase.trans hp)]
    omega

/-- A step of a running command leaves fewer steps: a failure and a completion leave none, a pixel
step one pixel fewer, and a phase is left for one with a smaller bound. D_HEADER's bound holds the
image because the accepted descriptor is valid. -/
theorem EngineStep.stepsLeft_lt (hp : s.phase ≠ .idle) (h : EngineStep block s t) :
    t.stepsLeft < s.stepsLeft := by
  cases h with
  | idle hidle => exact absurd hidle hp
  | fail | eTrailer | dDone =>
    rw [State.stepsLeft_idle rfl]
    exact State.stepsLeft_pos hp
  | eCheck hp =>
    rw [State.stepsLeft_eCheck hp, State.stepsLeft_eHeader rfl]
    change 4 + s.pixels < 5 + s.pixels
    omega
  | eHeader hp =>
    rw [State.stepsLeft_eHeader hp, State.stepsLeft_ePixels rfl]
    change 3 + (s.pixels - s.i) < 4 + s.pixels
    omega
  | ePixel hp hi => exact State.stepsLeft_pixel (.inl hp) hi rfl rfl rfl
  | ePixelsDone hp =>
    rw [State.stepsLeft_ePixels hp, State.stepsLeft_eFlush rfl]
    omega
  | eFlush hp =>
    rw [State.stepsLeft_eFlush hp, State.stepsLeft_eTrailer rfl]
    decide
  | dCheck hp =>
    rw [State.stepsLeft_dCheck hp, State.stepsLeft_dHeader rfl]
    omega
  | dHeader hp d hd =>
    have himage : d.W.toNat * d.Hgt.toNat < block.pixelsMax :=
      pixels_lt_of_validDesc (validDesc_of_parseHeader hd)
    rw [State.stepsLeft_dHeader hp, State.stepsLeft_dPixels rfl]
    change 1 + (d.W.toNat * d.Hgt.toNat - 0) < 2 + block.pixelsMax
    omega
  | dRepeat hp hi => exact State.stepsLeft_pixel (.inr hp) hi rfl rfl rfl
  | dChunk hp hi hr i =>
    obtain ⟨p, q, rr, ca, hc⟩ := afterChunk_frame block i s
    rw [hc]
    exact State.stepsLeft_pixel (.inr hp) hi rfl rfl rfl

end

/-- Settles O57: every engine step is one of `EngineStep`, and each leaves fewer steps. -/
theorem commandsEnd : Obligations.CommandsEnd :=
  fun _ _ _ hp h => (engineStep_cases h).stepsLeft_lt hp

end Sys2Proof.Machine
end

/-! # Proofs: the failure of a command (`60_exceptions.md`)

The engine sets ERROR only by `State.fail`, so ERROR after its step means every effect of a failure. -/

section
namespace Sys2Proof.Machine

theorem Status.error_running : Status.error Status.running = false := by decide

theorem Status.error_completed : Status.error Status.completed = false := by decide

/-- The engine writes STATUS only as a command fails or completes. -/
theorem EngineStep.status {P : Config.Params} {s t : State} (h : EngineStep P s t) :
    t.status = s.status ∨ t.status = Status.completed ∨ ∃ e, t = s.fail e := by
  cases h with
  | idle | eCheck | eHeader | ePixel | ePixelsDone | eFlush | dCheck | dHeader | dRepeat =>
    exact .inl rfl
  | fail _ e => exact .inr (.inr ⟨e, rfl⟩)
  | eTrailer | dDone => exact .inr (.inl rfl)
  | dChunk hp hi hr i =>
    obtain ⟨p, q, rr, ca, hc⟩ := afterChunk_frame P i s
    rw [hc]
    exact .inl rfl

/-- Settles O43: STATUS has ERROR = 0 while a command runs and after it completes, so the step is a
failure. -/
theorem failureEffects : Obligations.FailureEffects := by
  intro s t hs hp h herror
  obtain hkept | hcompleted | ⟨e, rfl⟩ := (engineStep_cases h).status
  · rw [hkept, (State.statusOk_running hp).1 hs, Status.error_running] at herror
    contradiction
  · rw [hcompleted, Status.error_completed] at herror
    contradiction
  · exact ⟨e, failed_fail s e⟩

end Sys2Proof.Machine
end

/-! # Proofs: reset and hazards (`70_reset_and_hazards.md`)

What a reset leaves, and the first command after one. -/

section
namespace Sys2Proof.Machine

/-! ## The invariant right after reset (rule R340) -/

/-- Settles O55: nothing is stored yet, STATUS is 0, and IDLE asks for nothing more. -/
theorem invariantAtReset : Obligations.InvariantAtReset := fun _ =>
  have hphase : State.reset.phase = .idle := rfl
  { mem := ⟨State.reset_mem_wf.1, State.reset_mem_wf.2⟩
    status := (State.statusOk_idle hphase).2 (.inl rfl)
    phase := trivial }

/-! ## What a reset leaves (rules R340, R341) -/

section
variable (s : State)

/-- With no command running, the engine waits. -/
theorem engineStep_idle (hphase : s.phase = .idle) : engineStep s = .next s := by
  rw [engineStep, engineStepWith, hphase]

theorem State.reset_regRead (off : Nat) : State.reset.regRead off = 0 := by
  simp [State.regRead_eq, State.reset]

@[simp] theorem State.hardReset_regRead (off : Nat) : s.hardReset.regRead off = 0 := by
  simp [State.regRead_eq]

/-- A reset touches DST only if it abandons a command. -/
theorem State.hardReset_dst :
    s.hardReset.dst = if Status.busy s.status then s.scrambleDst.dst else s.dst := by
  unfold State.hardReset
  split <;> rfl

@[simp] theorem State.hardReset_dst_size : s.hardReset.dst.size = s.dst.size := by
  rw [State.hardReset_dst]
  split
  · exact Memory.writeAll_size _ _ _
  · rfl

/-- DST from `cap` on is out of the abandoned command's reach. -/
theorem State.dstByte_hardReset_beyond {a : Nat} (ha : s.cap.toNat ≤ a) :
    s.hardReset.dstByte a = s.dstByte a := by
  rw [State.dstByte, State.hardReset_dst]
  split
  · exact s.dstByte_scrambleDst_beyond ha
  · rfl

end

/-- Settles O50: a reset is `State.hardReset`, and an idle engine waits. -/
theorem resetLeaves : Obligations.ResetLeaves := by
  refine ⟨State.reset_regRead, rfl, ?_, fun s => ⟨s.hardReset, rfl, s.hardReset_regRead, rfl,
    s.hardReset_src, s.hardReset_dst_size, fun heven => ?_,
    fun a ha => s.dstByte_hardReset_beyond ha, engineStep_idle _ rfl⟩⟩
  · rw [step_engine _ rfl]
    exact engineStep_idle _ rfl
  · rw [State.hardReset_dst, Status.busy_of_even heven]
    rfl

/-! ## The first command after reset (rule R344) -/

theorem eCheck_invalidDesc {P : Config.Params} {s : State}
    (hdesc : ¬ validDesc P s.W s.Hgt s.CH = true) : eCheck P s = s.fail .invalidArgument :=
  if_pos hdesc

theorem dCheck_passes {s : State} (hchannels : s.c = 0 ∨ s.c = 3 ∨ s.c = 4)
    (hsrc : s.total.toNat ≤ s.src.size) (hdst : s.cap.toNat ≤ s.dst.size) :
    dCheck s = { s with phase := .dHeader } := by
  rw [dCheck, if_neg (not_not_intro hchannels), if_neg (by omega)]

/-- A command started straight after reset, in phase `p`: what it latched is 0, as after reset. -/
def runningAfterReset (p : Phase) : State := { State.reset with status := 1, phase := p }

theorem step_encode_afterReset :
    step { State.reset with host := [.regWrite 0 1] } = .next (runningAfterReset .eCheck) := by
  obtain ⟨hencode, -⟩ := (cmdWrite State.reset 1).2 rfl
  rw [step_host _ _ _ rfl]
  exact (hencode rfl).trans (encodeStarts State.reset rfl)

theorem step_decode_afterReset :
    step { State.reset with host := [.regWrite 0 2] } = .next (runningAfterReset .dCheck) := by
  obtain ⟨-, hdecode, -⟩ := (cmdWrite State.reset 2).2 rfl
  rw [step_host _ _ _ rfl]
  exact (hdecode rfl).trans (decodeStarts State.reset rfl)

/-- The width is 0. -/
theorem step_eCheck_afterReset : step (runningAfterReset .eCheck) =
    .next ((runningAfterReset .eCheck).fail .invalidArgument) := by
  have hwidth : ¬ validDesc block 0 0 0 = true := fun h =>
    Nat.lt_irrefl 0 ((validDesc_iff block 0 0 0).1 h).1
  rw [step_eCheck rfl rfl, eCheck_invalidDesc hwidth]

/-- A channel count of 0 and two empty lengths are legal. -/
theorem step_dCheck_afterReset :
    step (runningAfterReset .dCheck) = .next (runningAfterReset .dHeader) := by
  rw [step_dCheck rfl rfl, dCheck_passes (.inl rfl) (Nat.zero_le _) (Nat.zero_le _)]
  rfl

/-- The stream is shorter than a header and a trailer. -/
theorem step_dHeader_afterReset : step (runningAfterReset .dHeader) =
    .next ((runningAfterReset .dHeader).fail .formatError) := by
  have hshort : (runningAfterReset .dHeader).total.toNat < 22 := Nat.zero_lt_succ 21
  rw [step_dHeader rfl rfl, dHeader_short hshort]

/-- Settles O51: ENCODE stops at its argument check, DECODE passes its own and stops at the
header. -/
theorem firstCommandsFail : Obligations.FirstCommandsFail :=
  ⟨⟨_, _, step_encode_afterReset, step_eCheck_afterReset, failed_fail _ _⟩,
    ⟨_, _, _, step_decode_afterReset, step_dCheck_afterReset, step_dHeader_afterReset,
      failed_fail _ _⟩⟩

end Sys2Proof.Machine
end
